-- ==== Sys2Proof/Word.lean ====
section
/-! DEFINITION. The words that pass on the Governor's channels: a byte of a management frame, a 40-bit byte address, a
beat of eight bytes (Introduction, Addresses and sizes). -/

namespace Sys2Proof

/-- One byte of a management frame (R166). -/
abbrev Byte := BitVec 8

/-- A 40-bit byte address (R1). -/
abbrev Addr := BitVec 40

/-- Eight bytes of data: one beat (R1). -/
abbrev Beat := BitVec 64

end Sys2Proof
end

