-- ==== Sys2Proof/Config.lean ====
section
/-! DEFINITION. The figures the spec fixes for the part (00_scope.md, Capacities and ranges). The spec leaves no value open,
so there is no free value here. -/

namespace Sys2Proof.Config

/-- The shared pool, in beats (R61). -/
abbrev poolBeats : Nat := 1024

/-- The most live descriptors (R61). -/
abbrev descriptorLimit : Nat := 64

/-- The most the eight class reservations may add up to, in beats (R67). -/
abbrev reservationCap : Nat := 512

/-- The most records the Capture Queue holds (R156). -/
abbrev captureLimit : Nat := 16

/-- The largest bucket size and token count, in bytes (R46). -/
abbrev bucketMax : Nat := 262143

/-- The page a transaction may not leave, in bytes (R6). -/
abbrev pageBytes : Nat := 4096

/-- The middle of a counter's range (R149). -/
abbrev halfRange : BitVec 32 := 0x80000000#32

/-- Bound on the visits of one weighted round: eight classes, each failing at most sixteen visits, and the visit that
chooses (R110). -/
abbrev visitBound : Nat := 129

end Sys2Proof.Config
end

