-- ==== Sys2Proof/Syntax.lean ====
section
/-! DEFINITION. The commands of the Governor: one constructor of `Instr` for each row of spec/opcode_table.json, with what
the command carries. -/

namespace Sys2Proof

/-- Direction of transfer (R1). -/
inductive Kind
  | read | write
deriving DecidableEq, Repr

/-- One beat of write data: eight bytes and their eight byte enables (R1). -/
structure DataBeat where
  data    : Beat
  enables : BitVec 8
deriving DecidableEq, Repr

/-- A request on a port's request channel (R1). The address is carried from bit 39 down to bit 3 (`line`) and the length
as a count of beats less one (`lenM1`), so that no field can leave its range. -/
structure Request where
  tag   : Fin 8
  kind  : Kind
  line  : BitVec 37
  lenM1 : Fin 16
  hint  : Fin 4
  priv  : Bool
  data  : List DataBeat
deriving DecidableEq, Repr

/-- The byte address: the carried bits with the low three bits zero (R1). -/
def Request.address (r : Request) : Addr := r.line ++ 0#3

/-- The length in beats, 1 to 16 (R1). It is also the load (R60). -/
def Request.beats (r : Request) : Nat := r.lenM1.val + 1

/-- The size in bytes, 8 to 128 (R49). -/
def Request.size (r : Request) : Nat := r.beats * 8

/-- Status of a completion (R124). -/
inductive MemStatus
  | okay | error
deriving DecidableEq, Repr

/-- An edge of the QUIESCE line (R98). -/
inductive Edge
  | falling | rising
deriving DecidableEq, Repr

/-- The bits of a management frame, or of what follows its code bytes: the levels of SDI at the rising edges of SCK, in their
order (R166). `ended` says that CS_N has risen after them; otherwise it is still low and the frame goes on. -/
structure FrameBits where
  bits  : List Bool
  ended : Bool
deriving DecidableEq, Repr

/-- The ten tables of R172. -/
inductive Table
  | global | port | cls | meter | rulePattern | ruleAction | counters | tracker | status | eventMask
deriving DecidableEq, Repr

/-- The three tables that cannot be written (R172). -/
inductive ReadOnlyTable
  | counters | tracker | status
deriving DecidableEq, Repr

/-- The fourteen commands a frame's byte 0 can name (R171). -/
inductive Command
  | readEntry | writeEntry | popCapture | swapBanks | clearGroup | clearAllCounters | clearEvents | clearCause
  | drain | release | setMode | setSeed | reclaimTags | governorReset
deriving DecidableEq, Repr

/-- Which part of a frame with read data (R169) the command is: `opening`, with its snapshot if byte 2 has completed, or
`resuming`, after an earlier command has taken its snapshot. -/
inductive FrameMoment
  | opening | resuming
deriving DecidableEq, Repr

/-- The input lines as a power-on or line reset ends, and the ports whose initiator still presents its request then
(R164, R183, R184, R187). -/
structure ResetEnd where
  resetNHigh      : Bool
  startHeld       : Bool
  csNLow          : Bool
  stillPresenting : BitVec 6
deriving DecidableEq, Repr

/-- The commands: one constructor per row of spec/opcode_table.json. A frame command carries the bits the host has sent after
the code bytes that name the row: from byte 1 on for a command, from byte 2 (the index) on for a table access (R167). -/
inductive Instr
  /-- REQUEST_PRESENTED (R2). -/
  | requestPresented (port : Fin 6) (request : Request)
  /-- TAKE (R12). -/
  | take
  /-- ISSUE (R108), with the level of the memory controller's ready indication. -/
  | issue (memReady : Bool)
  /-- COMPLETION (R124). -/
  | completion (tag : Fin 32) (status : MemStatus) (data : List Beat)
  /-- TICK (R43). -/
  | tick
  /-- EXPIRY (R130). -/
  | expiry
  /-- QUIESCE_CHANGE (R98). -/
  | quiesceChange (edge : Edge)
  /-- POWER_ON_RESET (R187). -/
  | powerOnReset
  /-- LINE_RESET (R187). -/
  | lineReset
  /-- READ_ENTRY (R172). -/
  | readEntry (moment : FrameMoment) (table : Table) (frame : FrameBits)
  /-- WRITE_ENTRY to a table with no behaviour of its own (R172). -/
  | writeEntry (table : ReadOnlyTable) (frame : FrameBits)
  /-- WRITE_GLOBAL (R175). -/
  | writeGlobal (frame : FrameBits)
  /-- WRITE_PORT (R176). -/
  | writePort (frame : FrameBits)
  /-- WRITE_CLASS (R107). -/
  | writeClass (frame : FrameBits)
  /-- WRITE_METER (R56). -/
  | writeMeter (frame : FrameBits)
  /-- METER_LOAD (R57). -/
  | meterLoad (frame : FrameBits)
  /-- WRITE_RULE_PATTERN (R38). -/
  | writeRulePattern (frame : FrameBits)
  /-- WRITE_RULE_ACTION (R39). -/
  | writeRuleAction (frame : FrameBits)
  /-- WRITE_EVENT_MASK (R162). -/
  | writeEventMask (frame : FrameBits)
  /-- POP_CAPTURE (R158). -/
  | popCapture (moment : FrameMoment) (frame : FrameBits)
  /-- SWAP_BANKS (R41). -/
  | swapBanks (frame : FrameBits)
  /-- CLEAR_GROUP (R152). -/
  | clearGroup (frame : FrameBits)
  /-- CLEAR_ALL_COUNTERS (R153). -/
  | clearAllCounters (frame : FrameBits)
  /-- CLEAR_EVENTS (R163). -/
  | clearEvents (frame : FrameBits)
  /-- CLEAR_CAUSE (R164). -/
  | clearCause (frame : FrameBits)
  /-- DRAIN (R96). -/
  | drain (frame : FrameBits)
  /-- RELEASE (R97). -/
  | release (frame : FrameBits)
  /-- SET_MODE (R101). -/
  | setMode (frame : FrameBits)
  /-- SET_SEED (R80). -/
  | setSeed (frame : FrameBits)
  /-- RECLAIM_TAGS (R137). -/
  | reclaimTags (frame : FrameBits)
  /-- GOVERNOR_RESET (R182), with the level of START_HELD at the end of its frame (R103). -/
  | governorReset (startHeld : Bool) (frame : FrameBits)
  /-- BAD_FRAME (R170): all the bits of a frame that names no command or no table. -/
  | badFrame (frame : FrameBits)
  /-- END_OF_RESET (R187). -/
  | endOfReset (ending : ResetEnd)
  /-- CS_N_HIGH_AFTER_RESET (R183). -/
  | csNHighAfterReset
deriving DecidableEq, Repr

end Sys2Proof
end

