-- ==== Sys2Proof/Machine/Codes.lean ====
section
/-! DEFINITION. The code bytes and lengths of management frames (R171, R172). -/

namespace Sys2Proof

/-- The command codes of R171. -/
def Command.code : Command → Byte
  | .readEntry => 0x01#8
  | .writeEntry => 0x02#8
  | .popCapture => 0x03#8
  | .swapBanks => 0x04#8
  | .clearGroup => 0x05#8
  | .clearAllCounters => 0x06#8
  | .clearEvents => 0x07#8
  | .clearCause => 0x08#8
  | .drain => 0x09#8
  | .release => 0x0A#8
  | .setMode => 0x0B#8
  | .setSeed => 0x0C#8
  | .reclaimTags => 0x0D#8
  | .governorReset => 0x0E#8

/-- Every command, in the order of its code (R171). -/
def Command.all : List Command :=
  [.readEntry, .writeEntry, .popCapture, .swapBanks, .clearGroup, .clearAllCounters, .clearEvents, .clearCause,
   .drain, .release, .setMode, .setSeed, .reclaimTags, .governorReset]

/-- The command a code byte names, if it names one (R170, R171). -/
def Command.ofCode (b : Byte) : Option Command :=
  Command.all.find? (fun c => c.code == b)

/-- The table codes of R172. -/
def Table.code : Table → Byte
  | .global => 0x01#8
  | .port => 0x02#8
  | .cls => 0x03#8
  | .meter => 0x04#8
  | .rulePattern => 0x05#8
  | .ruleAction => 0x06#8
  | .counters => 0x07#8
  | .tracker => 0x08#8
  | .status => 0x09#8
  | .eventMask => 0x0A#8

/-- Every table, in the order of its code (R172). -/
def Table.all : List Table :=
  [.global, .port, .cls, .meter, .rulePattern, .ruleAction, .counters, .tracker, .status, .eventMask]

/-- The table a code byte names, if it names one (R170, R172). -/
def Table.ofCode (b : Byte) : Option Table :=
  Table.all.find? (fun t => t.code == b)

/-- Entry sizes in bytes (R172). -/
def Table.entrySize : Table → Nat
  | .global => 54
  | .port => 29
  | .cls => 24
  | .meter => 15
  | .rulePattern => 16
  | .ruleAction => 12
  | .counters => 24
  | .tracker => 17
  | .status => 13
  | .eventMask => 2

/-- The length of a table access, in bytes: 3 + entry size (R172). -/
def Table.frameLength (t : Table) : Nat := 3 + t.entrySize

/-- A table that cannot be written, as a table (R172). -/
def ReadOnlyTable.table : ReadOnlyTable → Table
  | .counters => .counters
  | .tracker => .tracker
  | .status => .status

/-- The length in bytes of the frame of a command other than READ_ENTRY and WRITE_ENTRY (R171). The two table accesses take
theirs from their table. -/
def Command.frameLength : Command → Nat
  | .readEntry => 3
  | .writeEntry => 3
  | .popCapture => 15
  | .swapBanks => 3
  | .clearGroup => 3
  | .clearAllCounters => 3
  | .clearEvents => 8
  | .clearCause => 3
  | .drain => 3
  | .release => 3
  | .setMode => 4
  | .setSeed => 5
  | .reclaimTags => 3
  | .governorReset => 3

/-! ### Serial bits (R166) -/

/-- The byte eight bits make, the first of them the most significant (R166). -/
def byteOfBits (b7 b6 b5 b4 b3 b2 b1 b0 : Bool) : Byte :=
  BitVec.ofNat 8 (128 * b7.toNat + 64 * b6.toNat + 32 * b5.toNat + 16 * b4.toNat + 8 * b3.toNat + 4 * b2.toNat +
    2 * b1.toNat + b0.toNat)

/-- The bytes that complete in a run of bits, in groups of eight from its start (R166). -/
def bytesOfBits : List Bool → List Byte
  | b7 :: b6 :: b5 :: b4 :: b3 :: b2 :: b1 :: b0 :: rest => byteOfBits b7 b6 b5 b4 b3 b2 b1 b0 :: bytesOfBits rest
  | _ => []

/-- The bits of a byte as they pass on the line, most significant first (R166). -/
def bitsOfByte (b : Byte) : List Bool :=
  [b.getLsbD 7, b.getLsbD 6, b.getLsbD 5, b.getLsbD 4, b.getLsbD 3, b.getLsbD 2, b.getLsbD 1, b.getLsbD 0]

/-- The bits of a run of bytes (R166). -/
def bitsOfBytes (l : List Byte) : List Bool := l.flatMap bitsOfByte

/-- The bytes of a frame, or of what follows its code bytes; a trailing partial byte is none of them (R166). -/
def FrameBits.bytes (f : FrameBits) : List Byte := bytesOfBits f.bits

/-- The LOAD byte of a METER write, given the bytes from the index on, is 01h (R177: it stands at byte 8 of the entry). -/
def FrameBits.loadSet (f : FrameBits) : Bool := f.bytes[9]? == some 0x01#8

/-- The whole frame names no command, or is a table access that names no table (R170): the row is BAD_FRAME. -/
def FrameBits.namesNoRow (f : FrameBits) : Bool :=
  match f.bytes with
  | [] => true
  | c :: rest =>
    match Command.ofCode c with
    | none => true
    | some .readEntry | some .writeEntry =>
      match rest with
      | [] => true
      | t :: _ => (Table.ofCode t).isNone
    | some _ => false

/-! ### Read data -/

/-- A list brought to `n` entries: the entries beyond are dropped, the missing ones are `z` (R126; R167). -/
def fitTo {α : Type} (z : α) (n : Nat) (l : List α) : List α := l.take n ++ List.replicate (n - l.length) z

/-! ### The request channel -/

/-- What the request channel carries of a request: `beats` beats of data for a WRITE, none for a READ (R1, log 8). -/
def Request.carried (r : Request) : Request :=
  { r with data := match r.kind with
      | .read => []
      | .write => fitTo ⟨0#64, 0#8⟩ r.beats r.data }

/-- The SCK edges of a frame with `code` code bytes (R166). -/
def FrameBits.edges (f : FrameBits) (code : Nat) : Nat := 8 * code + f.bits.length

/-- The frame has the length in bytes its command asks for (R170). -/
def FrameBits.lengthIs (f : FrameBits) (code want : Nat) : Bool := f.edges code == 8 * want

end Sys2Proof
end

