-- ==== Sys2Proof/WellFormed.lean ====
section
/-! DEFINITION. Which commands their senders can give. The types keep every other field in its range. -/

namespace Sys2Proof

/-- The data of a request: `beats` beats for a WRITE, none for a READ (R1). -/
def Request.dataFits (r : Request) : Bool :=
  match r.kind with
  | .read => r.data.isEmpty
  | .write => r.data.length == r.beats

/-- The command is one its sender can give. -/
def Instr.wellFormed : Instr → Bool
  | .requestPresented _ r => r.dataFits
  | .take => true
  | .issue _ => true
  | .completion _ _ data => data.length ≤ 16
  | .tick => true
  | .expiry => true
  | .quiesceChange _ => true
  | .powerOnReset => true
  | .lineReset => true
  | .readEntry _ _ _ => true
  | .writeEntry _ _ => true
  | .writeGlobal _ => true
  | .writePort _ => true
  | .writeClass _ => true
  | .writeMeter f => !f.loadSet
  | .meterLoad f => f.loadSet
  | .writeRulePattern _ => true
  | .writeRuleAction _ => true
  | .writeEventMask _ => true
  | .popCapture _ _ => true
  | .swapBanks _ => true
  | .clearGroup _ => true
  | .clearAllCounters _ => true
  | .clearEvents _ => true
  | .clearCause _ => true
  | .drain _ => true
  | .release _ => true
  | .setMode _ => true
  | .setSeed _ => true
  | .reclaimTags _ => true
  | .governorReset _ _ => true
  | .badFrame f => f.namesNoRow
  | .endOfReset _ => true
  | .csNHighAfterReset => true

end Sys2Proof
end

