-- ==== Sys2Proof/Decode.lean ====
section
/-! DEFINITION. The opcode table gives no row a word of bits, so `decodeTableWord` reads none. The management frames do have
code bytes (R171, R172): `decodeFrame` reads the serial bits of a frame as its command and `encodeFrame` writes them. -/

namespace Sys2Proof

/-- The command a word of the opcode table spells: no row of the table gives bits. -/
def decodeTableWord (_nbits _w : Nat) : Option Instr := none

/-- A READ_ENTRY or WRITE_ENTRY frame by its table: the bits from the index on go to the row (R172, R177). -/
def decodeWrite (t : Table) (f : FrameBits) : Instr :=
  match t with
  | .global => .writeGlobal f
  | .port => .writePort f
  | .cls => .writeClass f
  | .meter => if f.loadSet then .meterLoad f else .writeMeter f
  | .rulePattern => .writeRulePattern f
  | .ruleAction => .writeRuleAction f
  | .counters => .writeEntry .counters f
  | .tracker => .writeEntry .tracker f
  | .status => .writeEntry .status f
  | .eventMask => .writeEventMask f

/-- The frame without its first `n` bytes. -/
def FrameBits.afterBytes (f : FrameBits) (n : Nat) : FrameBits := ⟨f.bits.drop (8 * n), f.ended⟩

/-- The command the serial bits of a management frame make, from its first bit on (R166, R167, R170 to R172). `startHeld` is the
level of START_HELD at its end, which only GOVERNOR_RESET samples (R103). -/
def decodeFrame (startHeld : Bool) (f : FrameBits) : Instr :=
  match f.bytes with
  | [] => .badFrame f
  | c :: rest =>
    let g := f.afterBytes 1
    match Command.ofCode c with
    | none => .badFrame f
    | some .readEntry =>
      match rest with
      | [] => .badFrame f
      | t :: _ =>
        match Table.ofCode t with
        | none => .badFrame f
        | some tab => .readEntry .opening tab (f.afterBytes 2)
    | some .writeEntry =>
      match rest with
      | [] => .badFrame f
      | t :: _ =>
        match Table.ofCode t with
        | none => .badFrame f
        | some tab => decodeWrite tab (f.afterBytes 2)
    | some .popCapture => .popCapture .opening g
    | some .swapBanks => .swapBanks g
    | some .clearGroup => .clearGroup g
    | some .clearAllCounters => .clearAllCounters g
    | some .clearEvents => .clearEvents g
    | some .clearCause => .clearCause g
    | some .drain => .drain g
    | some .release => .release g
    | some .setMode => .setMode g
    | some .setSeed => .setSeed g
    | some .reclaimTags => .reclaimTags g
    | some .governorReset => .governorReset startHeld g

/-- A frame from a command code and what follows it. -/
def frameOf (c : Command) (f : FrameBits) : FrameBits := ⟨bitsOfByte c.code ++ f.bits, f.ended⟩

/-- A frame from a table access and what follows its two code bytes. -/
def tableFrameOf (c : Command) (t : Table) (f : FrameBits) : FrameBits :=
  ⟨bitsOfByte c.code ++ (bitsOfByte t.code ++ f.bits), f.ended⟩

/-- The frame the host sends for a command that is a frame; `none` for the events that are not, and for a frame that resumes,
since its beginning was an earlier command. -/
def encodeFrame : Instr → Option FrameBits
  | .requestPresented _ _ => none
  | .take => none
  | .issue _ => none
  | .completion _ _ _ => none
  | .tick => none
  | .expiry => none
  | .quiesceChange _ => none
  | .powerOnReset => none
  | .lineReset => none
  | .readEntry .opening t f => some (tableFrameOf .readEntry t f)
  | .readEntry .resuming _ _ => none
  | .writeEntry t f => some (tableFrameOf .writeEntry t.table f)
  | .writeGlobal f => some (tableFrameOf .writeEntry .global f)
  | .writePort f => some (tableFrameOf .writeEntry .port f)
  | .writeClass f => some (tableFrameOf .writeEntry .cls f)
  | .writeMeter f => some (tableFrameOf .writeEntry .meter f)
  | .meterLoad f => some (tableFrameOf .writeEntry .meter f)
  | .writeRulePattern f => some (tableFrameOf .writeEntry .rulePattern f)
  | .writeRuleAction f => some (tableFrameOf .writeEntry .ruleAction f)
  | .writeEventMask f => some (tableFrameOf .writeEntry .eventMask f)
  | .popCapture .opening f => some (frameOf .popCapture f)
  | .popCapture .resuming _ => none
  | .swapBanks f => some (frameOf .swapBanks f)
  | .clearGroup f => some (frameOf .clearGroup f)
  | .clearAllCounters f => some (frameOf .clearAllCounters f)
  | .clearEvents f => some (frameOf .clearEvents f)
  | .clearCause f => some (frameOf .clearCause f)
  | .drain f => some (frameOf .drain f)
  | .release f => some (frameOf .release f)
  | .setMode f => some (frameOf .setMode f)
  | .setSeed f => some (frameOf .setSeed f)
  | .reclaimTags f => some (frameOf .reclaimTags f)
  | .governorReset _ f => some (frameOf .governorReset f)
  | .badFrame f => some f
  | .endOfReset _ => none
  | .csNHighAfterReset => none

end Sys2Proof
end

