-- ==== Sys2Proof/Machine/State.lean ====
section
/-! DEFINITION. The state of the Governor, block by block, as plain data; the reasons a step can stop; the state after
reset. -/

namespace Sys2Proof.Machine

/-- The reasons a step of the machine can stop. The spec names none: every command it gives has an effect, or leaves the
part as it was. -/
inductive Fault
deriving DecidableEq, Repr

/-- Why a step is refused. -/
inductive Refusal
  /-- Raised by `exec` for a command that has no meaning yet; safe. No arm raises it. -/
  | notModelled (mnemonic : String)
deriving DecidableEq, Repr

/-! ### Names the spec fixes -/

/-- The colour a meter gives (R46, R50). -/
inductive Colour
  | green | yellow | red
deriving DecidableEq, Repr

/-- Why a request is answered RETRY (R7). -/
inductive RetryReason
  | pool | portLimit | threshold | lottery
deriving DecidableEq, Repr

/-- Why a request is answered DENIED (R7). -/
inductive DeniedReason
  | rule | boundary
deriving DecidableEq, Repr

/-- Why a transaction is answered FAULT (R7). -/
inductive FaultReason
  | memory | expired | reset
deriving DecidableEq, Repr

/-- A response's code with its reason (R7). -/
inductive RespCode
  | okay
  | retry (reason : RetryReason)
  | denied (reason : DeniedReason)
  | fault (reason : FaultReason)
deriving DecidableEq, Repr

/-- A response on a port's response channel (R7). `data` is present for OKAY on a READ only. -/
structure Response where
  tag  : Fin 8
  code : RespCode
  data : Option (List Beat)
deriving DecidableEq, Repr

/-- The operating mode (R94). -/
inductive Mode
  | bypass | enforce
deriving DecidableEq, Repr

/-- The operating state (R94). -/
inductive OpState
  | running | draining | drained
deriving DecidableEq, Repr

/-- How the QUIESCE line adds and removes LINE (R94, R98). -/
inductive QuiesceMode
  | off | levelLow | falling | rising
deriving DecidableEq, Repr

/-- How the scheduler serves a class (R106). -/
inductive SchedMode
  | strictHigh | weighted | strictLow
deriving DecidableEq, Repr

/-- Value of the DISPOSITION action type (R25). -/
inductive Disposition
  | pass | deny | critical
deriving DecidableEq, Repr

/-- The part a rule plays for one action type (R25). -/
inductive Claim
  | absent | set | default
deriving DecidableEq, Repr

/-- Where a descriptor stands (R65). -/
inductive DescState
  | queued | issued
deriving DecidableEq, Repr

/-- Why a downstream tag was orphaned (R122). -/
inductive OrphanCause
  | expired | reset
deriving DecidableEq, Repr

/-- What a take did with its request, as a capture record holds it (R155). -/
inductive TakeOutcome
  | admitted
  | retry (reason : RetryReason)
  | deniedRule
deriving DecidableEq, Repr

/-- A frame's result (R168). -/
inductive ResultCode
  | done | busy | refused | empty | badFrame
deriving DecidableEq, Repr

/-- The six counters of a group (R142), in the order of R151. -/
inductive Counter
  | admitted | admittedBytes | retried | denied | faulted | markedRed
deriving DecidableEq, Repr

/-- The eight sticky events (R160), in the bit order of R171. -/
inductive Sticky
  | captureLost | counterHalf | expired | memoryError | strayCompletion | holdChange | drainDone | frameError
deriving DecidableEq, Repr

/-! ### Ports -/

/-- One initiator port: the request its initiator is placing on the request channel and that is not yet accepted, the
request slot (R2) and the initiator tag set, true for LIVE (R4). -/
structure PortState where
  channel : Option Request
  slot    : Option Request
  tagLive : Vector Bool 8
deriving DecidableEq, Repr

/-! ### Rules -/

/-- The address field of a pattern, by its mode (R23, R24). -/
inductive AddrMatch
  | masked (a : Addr) (mask : BitVec 10)
  | range (a b : Addr)
deriving DecidableEq, Repr

/-- A pattern record (R20, R179). -/
structure Pattern where
  valid    : Bool
  hasPorts : Bool
  hasKind  : Bool
  hasAddr  : Bool
  hasBeats : Bool
  hasTags  : Bool
  hasHints : Bool
  hasPriv  : Bool
  ports    : BitVec 6
  kind     : Kind
  priv     : Bool
  tags     : BitVec 8
  hints    : BitVec 4
  addr     : AddrMatch
  beatsMin : Nat
  beatsMax : Nat
deriving DecidableEq, Repr

/-- A claim code and a value: what an action record holds for one action type (R25). -/
structure Claimed (α : Type) where
  claim : Claim
  value : α
deriving DecidableEq, Repr

/-- An action record (R25, R180). NONE is `none` in METER, YES is `true` in NOTIFY. -/
structure Action where
  cls         : Claimed (Fin 8)
  meter       : Claimed (Option (Fin 16))
  group       : Claimed (Fin 24)
  disposition : Claimed Disposition
  notify      : Claimed Bool
  deadline    : Claimed (Fin 256)
  hint        : Claimed (Fin 4)
deriving DecidableEq, Repr

/-- A rule: a pattern and an action under one index (R19). -/
structure Rule where
  pattern : Pattern
  action  : Action
deriving DecidableEq, Repr

/-! ### Meters, records -/

/-- A two-bucket meter (R46). -/
structure Meter where
  cir : Nat
  cbs : Nat
  ebs : Nat
  c   : Nat
  e   : Nat
deriving DecidableEq, Repr

/-- A threshold pair, in beats (R68). -/
structure Pair where
  min : Nat
  max : Nat
deriving DecidableEq, Repr

/-- One value for each colour: threshold pairs (R68) and the hint map (R106). -/
structure PerColour (α : Type) where
  green  : α
  yellow : α
  red    : α
deriving DecidableEq, Repr

/-- The writable fields of a PORT record (R27, R49, R69, R86, R176). -/
structure PortRecord where
  defClass    : Fin 8
  defMeter    : Option (Fin 16)
  defGroup    : Fin 24
  colourAware : Bool
  colourMap   : Vector Colour 4
  limit       : Nat
  globalPart  : Bool
  holdEn      : Bool
  holdOn      : Nat
  holdOff     : Nat
  paceEn      : Bool
  paceMeter   : Fin 16
  paceOn      : Nat
  paceOff     : Nat
deriving DecidableEq, Repr

/-- The writable fields of a CLASS record (R106, R177). -/
structure ClassRecord where
  mode     : SchedMode
  weight   : Nat
  res      : Nat
  thr      : PerColour Pair
  deadline : Fin 256
  hintMap  : PerColour (Fin 4)
deriving DecidableEq, Repr

/-- The writable fields of the GLOBAL record (R175). -/
structure GlobalRecord where
  tickPeriod  : Nat
  holdOn      : Nat
  holdOff     : Nat
  thr         : PerColour Pair
  lotLower    : Fin 4
  lotUpper    : Fin 4
  quiesceMode : QuiesceMode
  statsEnable : Bool
  enables     : Vector (BitVec 6) 24
deriving DecidableEq, Repr

/-! ### Transactions -/

/-- A live transaction (R65). Its length is held as beats less one, as the request carries it. `dataRef` is the reference to
its space in the Write Data Store, which goes by port and tag. `ranOut` is the model's own: the count reached 0 at a tick
and the expiry is still to be carried out. -/
structure Descriptor where
  port     : Fin 6
  tag      : Fin 8
  kind     : Kind
  address  : Addr
  lenM1    : Fin 16
  cls      : Fin 8
  colour   : Colour
  group    : Fin 24
  critical : Bool
  deadline : Fin 256
  hint     : Fin 4
  state    : DescState
  dtag     : Option (Fin 32)
  dataRef  : Option (Fin 6 × Fin 8)
  ranOut   : Bool
deriving DecidableEq, Repr

/-- A transaction's beats, which are its load (R60). -/
def Descriptor.beats (d : Descriptor) : Nat := d.lenM1.val + 1

/-- What an ORPHAN tag keeps of the transaction it was issued for (R122). -/
structure OrphanRecord where
  cause   : OrphanCause
  port    : Fin 6
  tag     : Fin 8
  kind    : Kind
  address : Addr
  lenM1   : Fin 16
deriving DecidableEq, Repr

/-- A downstream tag (R122): BUSY names its descriptor, ORPHAN keeps its orphan record. -/
inductive TagState
  | free
  | busy (d : Descriptor)
  | orphan (o : OrphanRecord)
deriving DecidableEq, Repr

/-- A live WRITE's space in the Write Data Store (R64). -/
structure WriteSpace where
  port : Fin 6
  tag  : Fin 8
  data : List DataBeat
deriving DecidableEq, Repr

/-- The load quantities of the Transaction Table (R61, R62). -/
structure Loads where
  liveCount      : Nat
  totalLoad      : Nat
  occ            : Vector Nat 8
  portLoad       : Vector Nat 6
  sharedLoad     : Nat
  sharedCapacity : Nat
deriving DecidableEq, Repr

/-- The downstream request handed to the memory controller (R113). `data` is absent for a READ. -/
structure DownstreamRequest where
  dtag    : Fin 32
  kind    : Kind
  address : Addr
  lenM1   : Fin 16
  hint    : Fin 4
  data    : Option (List DataBeat)
deriving DecidableEq, Repr

/-! ### Holding, draining, scheduling, reporting -/

/-- The latches of the Hold Monitor, true for ON (R88). -/
structure HoldLatches where
  glob : Bool
  port : Vector Bool 6
  pace : Vector Bool 6
deriving DecidableEq, Repr

/-- The Drain Controller's mode, operating state and drain request set (R94). -/
structure Drain where
  mode    : Mode
  opState : OpState
  command : Bool
  line    : Bool
deriving DecidableEq, Repr

/-- The scheduler's round pointer and deficits (R110, R111). -/
structure Sched where
  roundPtr : Fin 8
  deficit  : Vector Nat 8
deriving DecidableEq, Repr

/-- The Counter Bank: 24 groups of six counters (R142) and the group half set (R149). -/
structure CounterBank where
  groups : Vector (Vector (BitVec 32) 6) 24
  half   : Vector Bool 24
deriving DecidableEq, Repr

/-- A capture record (R155). `colour` is `none` for DENIED/RULE. -/
structure CaptureRecord where
  bank    : Fin 2
  rule    : Fin 48
  port    : Fin 6
  tag     : Fin 8
  kind    : Kind
  address : Addr
  lenM1   : Fin 16
  cls     : Fin 8
  colour  : Option Colour
  outcome : TakeOutcome
deriving DecidableEq, Repr

/-- The sticky events (R160), bit for bit as R171 orders them, and the event mask (R162). -/
structure EventUnit where
  sticky : BitVec 8
  mask   : BitVec 10
deriving DecidableEq, Repr

/-- The reset cause record (R164). -/
structure ResetCause where
  powerOn  : Bool
  line     : Bool
  governor : Bool
deriving DecidableEq, Repr

/-- Which command a snapshot belongs to. -/
inductive FrameSource
  | readEntry (table : Table)
  | popCapture
deriving DecidableEq, Repr

/-- The snapshot of a frame (R169): the command it belongs to, its read data, and whether it found what it named. -/
structure Snapshot where
  source : FrameSource
  data   : List Byte
  found  : Bool
deriving DecidableEq, Repr

/-- A frame in progress, with CS_N low (R166): its snapshot if one has been taken, and the bits SDO has carried in it, one for
each rising edge of SCK so far (log 21). -/
structure OpenFrame where
  snapshot : Option Snapshot
  shifted  : List Bool
deriving DecidableEq, Repr

/-- The Management Port: the result register (R168), the frame whose end has not come (R169), and the selection that is no
frame because CS_N was low as a reset ended (R183). -/
structure Mgmt where
  result      : ResultCode
  openFrame   : Option OpenFrame
  awaitCsHigh : Bool
deriving DecidableEq, Repr

/-- Whether the part runs or is held in reset (R184 to R187). -/
inductive Phase
  | running | powerOnReset | lineReset
deriving DecidableEq, Repr

/-- The input lines as last seen (10.8). -/
structure Pins where
  resetNHigh  : Bool
  startHeld   : Bool
  quiesceHigh : Bool
  memReady    : Bool
deriving DecidableEq, Repr

/-- What the part put on its channels at the last event: the port whose request was accepted (R5), the responses of each port
in their order (R8, R9), the downstream request (R113) and the bits SDO has carried, one for each rising edge of SCK, in the frame
that is open or that this event ended (R166, R167; `none`: SDO was undriven). -/
structure Outputs where
  accepted   : Option (Fin 6)
  responses  : Vector (List Response) 6
  downstream : Option DownstreamRequest
  sdo        : Option (List Bool)
deriving DecidableEq, Repr

/-- The state of the Governor. -/
structure State where
  phase       : Phase
  pins        : Pins
  ports       : Vector PortState 6
  lastGranted : Fin 6
  activeBank  : Fin 2
  rules       : Vector (Vector Rule 48) 2
  tickCounter : Nat
  meters      : Vector Meter 16
  portRec     : Vector PortRecord 6
  classRec    : Vector ClassRecord 8
  glob        : GlobalRecord
  loads       : Loads
  writeStore  : List WriteSpace
  lottery     : BitVec 16
  hold        : HoldLatches
  drain       : Drain
  queues      : Vector (List Descriptor) 8
  sched       : Sched
  tags        : Vector TagState 32
  counters    : CounterBank
  captures    : List CaptureRecord
  events      : EventUnit
  cause       : ResetCause
  mgmt        : Mgmt
  out         : Outputs
  pending     : List Instr
deriving DecidableEq, Repr

/-! ### Reset values -/

/-- An empty slot and eight FREE tags (R15). -/
def PortState.reset : PortState := ⟨none, none, .replicate 8 false⟩

/-- R42. -/
def Pattern.reset : Pattern :=
  { valid := false, hasPorts := false, hasKind := false, hasAddr := false, hasBeats := false, hasTags := false,
    hasHints := false, hasPriv := false, ports := 0#6, kind := .read, priv := false, tags := 0#8, hints := 0#4,
    addr := .masked 0#40 0#10, beatsMin := 1, beatsMax := 16 }

/-- R42. -/
def Action.reset : Action :=
  { cls := ⟨.absent, 0⟩, meter := ⟨.absent, some 0⟩, group := ⟨.absent, 0⟩, disposition := ⟨.absent, .pass⟩,
    notify := ⟨.absent, false⟩, deadline := ⟨.absent, 0⟩, hint := ⟨.absent, 0⟩ }

/-- R42. -/
def Rule.reset : Rule := ⟨.reset, .reset⟩

/-- R59. -/
def Meter.reset : Meter := ⟨0, 0, 0, 0, 0⟩

/-- The reset value of every threshold pair (R68). -/
def Pair.reset : Pair := ⟨1024, 1024⟩

/-- R176. -/
def PortRecord.reset (p : Fin 6) : PortRecord :=
  { defClass := 0, defMeter := none, defGroup := p.castLE (by decide), colourAware := false,
    colourMap := .replicate 4 .green, limit := 1024, globalPart := false, holdEn := false, holdOn := 1024,
    holdOff := 1023, paceEn := false, paceMeter := 0, paceOn := 0, paceOff := 1 }

/-- R106. -/
def ClassRecord.reset : ClassRecord :=
  { mode := .weighted, weight := 1, res := 0, thr := ⟨.reset, .reset, .reset⟩, deadline := 0, hintMap := ⟨0, 0, 0⟩ }

/-- R175. -/
def GlobalRecord.reset : GlobalRecord :=
  { tickPeriod := 1000, holdOn := 1024, holdOff := 1023, thr := ⟨.reset, .reset, .reset⟩, lotLower := 1, lotUpper := 3,
    quiesceMode := .off, statsEnable := true, enables := .replicate 24 0x3F#6 }

/-- R66. -/
def Loads.reset : Loads := ⟨0, 0, .replicate 8 0, .replicate 6 0, 0, 1024⟩

/-- R93. -/
def HoldLatches.reset : HoldLatches := ⟨false, .replicate 6 false, .replicate 6 false⟩

/-- R103, by the sampled level of START_HELD. -/
def Drain.reset (startHeld : Bool) : Drain :=
  if startHeld then ⟨.bypass, .drained, true, false⟩ else ⟨.bypass, .running, false, false⟩

/-- R120. -/
def Sched.reset : Sched := ⟨0, .replicate 8 0⟩

/-- R154. -/
def CounterBank.reset : CounterBank := ⟨.replicate 24 (.replicate 6 0#32), .replicate 24 false⟩

/-- R165. -/
def EventUnit.reset : EventUnit := ⟨0#8, 0x3FF#10⟩

/-- R168, R183. -/
def Mgmt.reset : Mgmt := ⟨.done, none, false⟩

/-- Nothing on any output channel. -/
def Outputs.quiet : Outputs := ⟨none, .replicate 6 [], none, none⟩

/-- The machine right after a power-on reset has ended with START_HELD, QUIESCE and READY as log 1 says (DESIGN CHOICE: the
levels of input lines; every other value is the spec's). -/
def State.reset : State :=
  { phase := .running
    pins := ⟨true, false, true, false⟩
    ports := .replicate 6 .reset
    lastGranted := 5
    activeBank := 0
    rules := .replicate 2 (.replicate 48 .reset)
    tickCounter := 0
    meters := .replicate 16 .reset
    portRec := .ofFn PortRecord.reset
    classRec := .replicate 8 .reset
    glob := .reset
    loads := .reset
    writeStore := []
    lottery := 0x6D2B#16
    hold := .reset
    drain := .reset false
    queues := .replicate 8 []
    sched := .reset
    tags := .replicate 32 .free
    counters := .reset
    captures := []
    events := .reset
    cause := ⟨true, false, false⟩
    mgmt := .reset
    out := .quiet
    pending := [] }

end Sys2Proof.Machine
end

