-- ==== Sys2Proof/Machine/Flags.lean ====
section
/-! DEFINITION. What the part reports: the sticky events, the level flags, the mask and the ALERT line (Chapter 9), the
statistics counters and their half-range crossing (Chapter 8). -/

namespace Sys2Proof.Machine

/-! ### Sticky events -/

/-- The bit of a sticky event (R171). -/
def Sticky.bit : Sticky → BitVec 8
  | .captureLost => 0x01#8
  | .counterHalf => 0x02#8
  | .expired => 0x04#8
  | .memoryError => 0x08#8
  | .strayCompletion => 0x10#8
  | .holdChange => 0x20#8
  | .drainDone => 0x40#8
  | .frameError => 0x80#8

/-- A sticky event is set (R160). -/
def State.isRaised (s : State) (e : Sticky) : Bool := s.events.sticky &&& e.bit != 0#8

/-- The sticky bits with one raised if `c` holds; a bit already set stays set (R160). -/
def stickyWith (bits : BitVec 8) (c : Bool) (e : Sticky) : BitVec 8 := if c then bits ||| e.bit else bits

/-- Raise a sticky event if `c` holds (R160). -/
def State.raiseIf (s : State) (c : Bool) (e : Sticky) : State :=
  { s with events := { s.events with sticky := stickyWith s.events.sticky c e } }

/-- Raise a sticky event (R160). -/
def State.raise (s : State) (e : Sticky) : State := s.raiseIf true e

/-! ### Level flags and output lines -/

/-- The tag is ORPHAN (R122). -/
def TagState.isOrphan : TagState → Bool
  | .free => false
  | .busy _ => false
  | .orphan _ => true

/-- The tag is FREE (R122). -/
def TagState.isFree : TagState → Bool
  | .free => true
  | .busy _ => false
  | .orphan _ => false

/-- CAPTURE_READY (R159). -/
def captureReady (s : State) : Bool := !s.captures.isEmpty

/-- TAGS_STUCK (R136). -/
def tagsStuck (s : State) : Bool := (List.finRange 32).all fun t => s.tags[t].isOrphan

/-- The two level flags, bit 0 CAPTURE_READY and bit 1 TAGS_STUCK (R178). -/
def levelFlags (s : State) : BitVec 2 := BitVec.ofBool (tagsStuck s) ++ BitVec.ofBool (captureReady s)

/-- The unmasked events and flags that stand, in the bit order of the mask (R162, R178). -/
def alertTerms (s : State) : BitVec 10 := (levelFlags s ++ s.events.sticky) &&& ~~~s.events.mask

/-- The ALERT line: high while an unmasked event or flag stands, low while the part is held in reset (R162). -/
def alertLine (s : State) : Bool := s.phase == .running && alertTerms s != 0#10

/-- The DRAINED line (R94, R103). -/
def drainedLine (s : State) : Bool := s.phase == .running && s.drain.opState == .drained

/-- The port drives SDO: a frame is in progress (R166). -/
def sdoDriven (s : State) : Bool := s.mgmt.openFrame.isSome

/-! ### Counters -/

/-- The place of a counter in its group (R151) and in its enable set (R175). -/
def Counter.idx : Counter → Fin 6
  | .admitted => 0
  | .admittedBytes => 1
  | .retried => 2
  | .denied => 3
  | .faulted => 4
  | .markedRed => 5

/-- The value of a counter. -/
def counterValue (s : State) (g : Fin 24) (c : Counter) : BitVec 32 := s.counters.groups[g][c.idx]

/-- The counter counts (R147). -/
def countEnabled (s : State) (g : Fin 24) (c : Counter) : Bool :=
  s.glob.statsEnable && s.glob.enables[g].getLsbD c.idx.val

/-- An increment crosses the half range (R149). -/
def crossesHalf (old new : BitVec 32) : Bool :=
  decide (old < Config.halfRange) && decide (Config.halfRange ≤ new)

/-- A counting event: `n` is added to counter `c` of group `g` modulo 2^32, and a crossing of the half range sets the group's
half bit and raises COUNTER_HALF (R142, R147, R149). A counter that is not enabled keeps its value. -/
def count (s : State) (g : Fin 24) (c : Counter) (n : Nat) : State :=
  let new := counterValue s g c + BitVec.ofNat 32 n
  let on := countEnabled s g c
  let crossed := on && crossesHalf (counterValue s g c) new
  { s with
    counters :=
      { groups := if on then s.counters.groups.set g (s.counters.groups[g].set c.idx new) else s.counters.groups
        half := if crossed then s.counters.half.set g true else s.counters.half }
    events := { s.events with sticky := stickyWith s.events.sticky crossed .counterHalf } }

/-- One counting event of 1 for each group of a list (R146). -/
def countEach (s : State) (gs : List (Fin 24)) (c : Counter) : State :=
  gs.foldl (fun t g => count t g c 1) s

/-- A group zeroed and its half bit cleared (R152). -/
def clearedGroup (b : CounterBank) (g : Fin 24) : CounterBank :=
  ⟨b.groups.set g (.replicate 6 0#32), b.half.set g false⟩

end Sys2Proof.Machine
end

