-- ==== Sys2Proof/Machine/Ops.lean ====
section
/-! DEFINITION. The operations the commands share: the channels, the load quantities, the Hold Monitor's evaluation, the
Drain Controller's moves, the freeing of descriptors, and the frame of a management command. -/

namespace Sys2Proof.Machine

/-! ### Channels -/

/-- The output channels at the start of an event: nothing stands on them (log 10), but SDO goes on while a frame is open
(R166). -/
def State.quietOut (s : State) : Outputs := { Outputs.quiet with sdo := s.mgmt.openFrame.map OpenFrame.shifted }

/-- The state at the start of an event. -/
def State.quiet (s : State) : State := { s with out := s.quietOut }

/-- An event of the transaction path: it has its effect while the part runs, and none while the part is held in reset (R184
to R186). -/
def whileRunning (s : State) (f : State → State) : Host.Outcome State Fault Refusal :=
  .next (if s.phase = .running then f s.quiet else s.quiet)

/-- A response delivered on a port, after those already delivered at this event (R8, R9). -/
def respond (s : State) (p : Fin 6) (r : Response) : State :=
  { s with out := { s.out with responses := s.out.responses.set p (s.out.responses[p] ++ [r]) } }

/-- A response without read data. -/
def plainResponse (t : Fin 8) (c : RespCode) : Response := ⟨t, c, none⟩

/-- Responses to the transactions of one port in ascending initiator tag order (R9, R133, R140). -/
def runOfResponses (ds : List Descriptor) (c : RespCode) (p : Fin 6) : List Response :=
  (List.finRange 8).flatMap fun t =>
    (ds.filter fun d => d.port == p && d.tag == t).map fun d => plainResponse d.tag c

/-- One event answers several transactions, each on its own port (R9, R133, R140). -/
def respondAll (s : State) (ds : List Descriptor) (c : RespCode) : State :=
  { s with out := { s.out with responses := .ofFn fun p => s.out.responses[p] ++ runOfResponses ds c p } }

/-! ### Descriptors -/

/-- The descriptors of all QUEUED transactions. -/
def queuedDescriptors (s : State) : List Descriptor := (List.finRange 8).flatMap fun k => s.queues[k]

/-- The descriptor a tag is bound to. -/
def TagState.bound : TagState → Option Descriptor
  | .free => none
  | .busy d => some d
  | .orphan _ => none

/-- The descriptors of all ISSUED transactions. -/
def issuedDescriptors (s : State) : List Descriptor := (List.finRange 32).filterMap fun t => s.tags[t].bound

/-- The live descriptors of the Transaction Table (R61). -/
def liveDescriptors (s : State) : List Descriptor := queuedDescriptors s ++ issuedDescriptors s

/-- The orphan record of a descriptor (R122). -/
def Descriptor.orphaned (d : Descriptor) (c : OrphanCause) : OrphanRecord :=
  { cause := c, port := d.port, tag := d.tag, kind := d.kind, address := d.address, lenM1 := d.lenM1 }

/-! ### Load quantities -/

/-- The load each class holds beyond its reservation, added up (R62). -/
def sharedLoadOf (occ : Vector Nat 8) (recs : Vector ClassRecord 8) : Nat :=
  ((List.finRange 8).map fun k => occ[k] - recs[k].res).sum

/-- The reservations added up (R67). -/
def reservationSum (recs : Vector ClassRecord 8) : Nat :=
  ((List.finRange 8).map fun k => recs[k].res).sum

/-- The size of the shared area (R62). -/
def sharedCapacityOf (recs : Vector ClassRecord 8) : Nat := Config.poolBeats - reservationSum recs

/-- The load quantities with a transaction added (R61, R62). -/
def Loads.add (l : Loads) (recs : Vector ClassRecord 8) (p : Fin 6) (k : Fin 8) (n : Nat) : Loads :=
  { l with
    liveCount := l.liveCount + 1
    totalLoad := l.totalLoad + n
    occ := l.occ.set k (l.occ[k] + n)
    portLoad := l.portLoad.set p (l.portLoad[p] + n)
    sharedLoad := sharedLoadOf (l.occ.set k (l.occ[k] + n)) recs }

/-- The beats of the descriptors of a list that satisfy a test. -/
def beatsWhere (ds : List Descriptor) (f : Descriptor → Bool) : Nat := ((ds.filter f).map Descriptor.beats).sum

/-- Occupancies less those of the descriptors freed. -/
def occWithout (l : Loads) (ds : List Descriptor) : Vector Nat 8 :=
  .ofFn fun k => l.occ[k] - beatsWhere ds fun d => d.cls == k

/-- The load quantities with the descriptors of one event freed (R61, R63). -/
def Loads.free (l : Loads) (recs : Vector ClassRecord 8) (ds : List Descriptor) : Loads :=
  { l with
    liveCount := l.liveCount - ds.length
    totalLoad := l.totalLoad - beatsWhere ds fun _ => true
    occ := occWithout l ds
    portLoad := .ofFn fun p => l.portLoad[p] - beatsWhere ds fun d => d.port == p
    sharedLoad := sharedLoadOf (occWithout l ds) recs }

/-- The two derived quantities recomputed from the reservations (R62, R67). -/
def Loads.recompute (l : Loads) (recs : Vector ClassRecord 8) : Loads :=
  { l with sharedLoad := sharedLoadOf l.occ recs, sharedCapacity := sharedCapacityOf recs }

/-! ### Hold Monitor -/

/-- A latch after an evaluation (R88). -/
def hysteresis (latch onCond offCond : Bool) : Bool := if latch then !offCond else onCond

/-- The port is HELD (R89). -/
def held (s : State) (p : Fin 6) : Bool :=
  (s.portRec[p].globalPart && s.hold.glob) || (s.portRec[p].holdEn && s.hold.port[p]) ||
    (s.portRec[p].paceEn && s.hold.pace[p])

/-- Which ports are HELD. -/
def heldPorts (s : State) : Vector Bool 6 := .ofFn (held s)

/-- The global latch evaluated (R88). -/
def evalGlobal (s : State) : Bool :=
  hysteresis s.hold.glob (decide (s.glob.holdOn ≤ s.loads.totalLoad)) (decide (s.loads.totalLoad ≤ s.glob.holdOff))

/-- A port latch evaluated (R88). -/
def evalPort (s : State) (p : Fin 6) : Bool :=
  hysteresis s.hold.port[p] (decide (s.portRec[p].holdOn ≤ s.loads.portLoad[p]))
    (decide (s.loads.portLoad[p] ≤ s.portRec[p].holdOff))

/-- A pace latch evaluated against the committed tokens of its pacing meter (R88). -/
def evalPace (s : State) (p : Fin 6) : Bool :=
  hysteresis s.hold.pace[p] (decide (s.meters[s.portRec[p].paceMeter].c < s.portRec[p].paceOn))
    (decide (s.portRec[p].paceOff ≤ s.meters[s.portRec[p].paceMeter].c))

/-- The latches of an event that evaluates the global latch if `g`, the port latches `pp` and the pace latches `pc`: in
ENFORCE mode each is evaluated, in BYPASS mode none is (R90, R92). -/
def latchesAfter (s : State) (g : Bool) (pp pc : Fin 6 → Bool) : HoldLatches :=
  if s.drain.mode = .enforce then
    { glob := if g then evalGlobal s else s.hold.glob
      port := .ofFn fun p => if pp p then evalPort s p else s.hold.port[p]
      pace := .ofFn fun p => if pc p then evalPace s p else s.hold.pace[p] }
  else s.hold

/-- The Hold Monitor's evaluation at an event (R90). -/
def evalLatches (s : State) (g : Bool) (pp pc : Fin 6 → Bool) : State := { s with hold := latchesAfter s g pp pc }

/-- HOLD_CHANGE is raised once by an event that changed the HELD state of any port since `before` (R91). -/
def noteHold (before s : State) : State := s.raiseIf (heldPorts before != heldPorts s) .holdChange

/-! ### Drain Controller -/

/-- The drain request set has a member (R94). -/
def Drain.requested (d : Drain) : Bool := d.command || d.line

/-- The operating state after the drain request set has become {COMMAND if `cmd`, LINE if `ln`} (R95). -/
def opStateWith (d : Drain) (live : Nat) (cmd ln : Bool) : OpState :=
  if cmd || ln then
    if d.requested then d.opState else if live = 0 then .drained else .draining
  else
    if d.requested then .running else d.opState

/-- The drain request set replaced at one event: `op_state` moves by R95, and DRAIN_DONE is raised if the drain is complete at
once. -/
def setRequests (s : State) (cmd ln : Bool) : State :=
  { s with
    drain := { s.drain with
      opState := opStateWith s.drain s.loads.liveCount cmd ln, command := cmd, line := ln }
    events := { s.events with
      sticky := stickyWith s.events.sticky
        ((cmd || ln) && !s.drain.requested && decide (s.loads.liveCount = 0)) .drainDone } }

/-- The drain is complete: DRAINING with no live transaction (R95). -/
def drainComplete (s : State) : Bool := s.drain.opState == .draining && decide (s.loads.liveCount = 0)

/-- After a freeing: a drain whose last live descriptor has gone ends in DRAINED with DRAIN_DONE (R95). -/
def endDrain (s : State) : State :=
  { s with
    drain := { s.drain with opState := if drainComplete s then .drained else s.drain.opState }
    events := { s.events with sticky := stickyWith s.events.sticky (drainComplete s) .drainDone } }

/-! ### Freeing -/

/-- One of the descriptors carries this port and tag. -/
def names (ds : List Descriptor) (p : Fin 6) (t : Fin 8) : Bool := ds.any fun d => d.port == p && d.tag == t

/-- The Transaction Table and the ports at the freeing of the descriptors of one event: the quantities fall, the space in the
Write Data Store is released and the initiator tags become FREE (R63, R4). -/
def freeDescriptors (s : State) (ds : List Descriptor) : State :=
  { s with
    loads := s.loads.free s.classRec ds
    writeStore := s.writeStore.filter fun w => !names ds w.port w.tag
    ports := .ofFn fun p =>
      { s.ports[p] with tagLive := .ofFn fun t => s.ports[p].tagLive[t] && !names ds p t } }

/-- What a freeing hands on: the latches that watch the loads are evaluated (R63, R90), and a drain may end (R95). -/
def handOn (s : State) (ds : List Descriptor) : State :=
  endDrain (evalLatches s (!ds.isEmpty) (fun p => ds.any fun d => d.port == p) fun _ => false)

/-! ### Management frames -/

/-- The snapshot of the frame in progress. -/
def openSnapshot (s : State) : Option Snapshot := s.mgmt.openFrame.bind OpenFrame.snapshot

/-- The port takes a frame from its beginning: the part runs, CS_N has gone high since the last reset, and no snapshot of a frame
in progress stands (R169, R183; log 6). -/
def frameReady (s : State) : Bool :=
  s.phase == .running && (openSnapshot s).isNone && !s.mgmt.awaitCsHigh

/-- The value of a result code (R168). -/
def ResultCode.byte : ResultCode → Byte
  | .done => 0x01#8
  | .busy => 0x02#8
  | .refused => 0x03#8
  | .empty => 0x04#8
  | .badFrame => 0x05#8

/-- The bits the port shifts out, one for each rising edge of SCK: those of the result of the frame before, of two zeros, of the
read data, and zeros after it (R166, R167; log 21). -/
def shiftedOut (s : State) (f : FrameBits) (code : Nat) (data : List Byte) : List Bool :=
  fitTo false (f.edges code) (bitsOfBytes (s.mgmt.result.byte :: 0#8 :: 0#8 :: data))

/-- The result register at the end of a frame (R168); no frame is open after it. -/
def endFrame (s : State) (r : ResultCode) : State :=
  { s with mgmt := { s.mgmt with result := r, openFrame := none } }

/-- A frame discarded for its length (R170). -/
def discardFrame (s : State) : State := (endFrame s .badFrame).raise .frameError

/-- SDO during the frame that ends at this event (R167). -/
def withSdo (s : State) (bits : List Bool) : State := { s with out := { s.out with sdo := some bits } }

/-- The end of a frame: a frame of the wrong length is discarded, and one of the right length acts and leaves its result
(R169, R170). -/
def closeFrame (s : State) (f : FrameBits) (code want : Nat) (data : List Byte) (act : State → State × ResultCode) :
    State :=
  let s1 := withSdo s (shiftedOut s f code data)
  if f.lengthIs code want then endFrame (act s1).1 (act s1).2 else discardFrame s1

/-- A frame that goes on: CS_N is low, and SDO has carried the bits so far (R166). -/
def leaveOpen (s : State) (o : OpenFrame) : State := ({ s with mgmt := { s.mgmt with openFrame := some o } }).quiet

/-- A frame as far as it has come: it ends, or it goes on with the snapshot `snap` (R166, R169). -/
def runFrame (s : State) (f : FrameBits) (code want : Nat) (snap : Option Snapshot) (act : State → State × ResultCode) :
    State :=
  let data := (snap.map Snapshot.data).getD []
  if f.ended then closeFrame s.quiet f code want data act else leaveOpen s ⟨snap, shiftedOut s f code data⟩

/-- The frame of a command that does nothing at its snapshot (R169). -/
def commandFrame (s : State) (c : Command) (f : FrameBits) (act : State → State × ResultCode) :
    Host.Outcome State Fault Refusal :=
  .next (if frameReady s then runFrame s f 1 c.frameLength none act else s.quiet)

/-- The frame of a write to a table: the write sees the index byte and the data bytes (R167, R172). -/
def tableFrame (s : State) (t : Table) (f : FrameBits) (act : Byte → List Byte → State → State × ResultCode) :
    Host.Outcome State Fault Refusal :=
  .next (if frameReady s then runFrame s f 2 t.frameLength none (act (f.bytes.headD 0#8) f.bytes.tail) else s.quiet)

/-- A frame with read data (R169). `code` counts its code bytes, `snap` is the snapshot as the state stands, which falls when byte 2
has completed, and `act` is what the end of the frame does with it. -/
def readFrame (s : State) (m : FrameMoment) (f : FrameBits) (code want : Nat) (snap : Snapshot)
    (act : Snapshot → State → State × ResultCode) : Host.Outcome State Fault Refusal :=
  .next (match m with
    | .opening =>
      if frameReady s then runFrame s f code want (if 24 ≤ f.edges code then some snap else none) (act snap) else s.quiet
    | .resuming =>
      match openSnapshot s with
      | some o => if o.source = snap.source ∧ s.phase = .running then runFrame s f code want (some o) (act o) else s.quiet
      | none => s.quiet)

end Sys2Proof.Machine
end

