-- ==== Sys2Proof/Machine/Operands.lean ====
section
/-! DEFINITION. The byte layouts of table entries and capture records (R173 to R181): what a read shifts out, when a written
entry passes its check, and the record a passing entry holds. -/

namespace Sys2Proof.Machine

/-! ### Numbers, flags and codes (R173) -/

/-- The low `n` bytes of a number, least significant first. -/
def leBytes : Nat → Nat → List Byte
  | 0, _ => []
  | n + 1, v => BitVec.ofNat 8 v :: leBytes n (v / 256)

/-- The number whose bytes, least significant first, are these. -/
def leNat : List Byte → Nat
  | [] => 0
  | b :: bs => b.toNat + 256 * leNat bs

/-- The number in the `n` bytes from offset `i` on. -/
def numAt (d : List Byte) (i n : Nat) : Nat := leNat ((d.drop i).take n)

/-- The byte at an offset. -/
def byteAt (d : List Byte) (i : Nat) : Byte := d.getD i 0#8

/-- The number in the byte at an offset. -/
def natAt (d : List Byte) (i : Nat) : Nat := (byteAt d i).toNat

/-- A number as an index below `n`. -/
def asFin (n : Nat) [NeZero n] (v : Nat) : Fin n := Fin.ofNat n v

/-- An on/off setting or flag as a byte. -/
def flagByte (b : Bool) : Byte := if b then 0x01#8 else 0x00#8

/-- The byte at an offset is a legal flag. -/
def flagOk (d : List Byte) (i : Nat) : Bool := natAt d i < 2

/-- The flag at an offset. -/
def flagAt (d : List Byte) (i : Nat) : Bool := natAt d i == 1

/-- A number of one byte. -/
def numByte (n : Nat) : Byte := BitVec.ofNat 8 n

/-- A list of bits as a number, member 0 in bit 0. -/
def bitsNat : List Bool → Nat
  | [] => 0
  | b :: bs => b.toNat + 2 * bitsNat bs

def kindByte : Kind → Byte
  | .read => 0x00#8
  | .write => 0x01#8

def colourByte : Colour → Byte
  | .green => 0x01#8
  | .yellow => 0x02#8
  | .red => 0x03#8

/-- The colour a code from 1 to 3 stands for. -/
def colourOf (n : Nat) : Colour := if n = 1 then .green else if n = 2 then .yellow else .red

def meterByte : Option (Fin 16) → Byte
  | none => 0xFF#8
  | some m => numByte m.val

/-- A code of the meter enumeration. -/
def meterOk (n : Nat) : Bool := n < 16 || n == 255

def meterOf (n : Nat) : Option (Fin 16) := if n = 255 then none else some (asFin 16 n)

def schedByte : SchedMode → Byte
  | .strictHigh => 0x00#8
  | .weighted => 0x01#8
  | .strictLow => 0x02#8

def schedOf (n : Nat) : SchedMode := if n = 0 then .strictHigh else if n = 1 then .weighted else .strictLow

def quiesceByte : QuiesceMode → Byte
  | .off => 0x00#8
  | .levelLow => 0x01#8
  | .falling => 0x02#8
  | .rising => 0x03#8

def quiesceOf (n : Nat) : QuiesceMode :=
  if n = 0 then .off else if n = 1 then .levelLow else if n = 2 then .falling else .rising

def modeByte : Mode → Byte
  | .bypass => 0x00#8
  | .enforce => 0x01#8

def opStateByte : OpState → Byte
  | .running => 0x00#8
  | .draining => 0x01#8
  | .drained => 0x02#8

def causeByte : OrphanCause → Byte
  | .expired => 0x01#8
  | .reset => 0x02#8

def dispositionByte : Disposition → Byte
  | .pass => 0x00#8
  | .deny => 0x01#8
  | .critical => 0x02#8

def dispositionOf (n : Nat) : Disposition := if n = 0 then .pass else if n = 1 then .deny else .critical

/-! ### Threshold pairs (R68) -/

/-- A pair at an offset: minimum, then maximum, two bytes each. -/
def pairAt (d : List Byte) (i : Nat) : Pair := ⟨numAt d i 2, numAt d (i + 2) 2⟩

/-- Three pairs from an offset on: green, yellow, red. -/
def pairsAt (d : List Byte) (i : Nat) : PerColour Pair := ⟨pairAt d i, pairAt d (i + 4), pairAt d (i + 8)⟩

/-- Each value lies in 0 to 1024 and the minimum is not above the maximum. -/
def Pair.legal (p : Pair) : Bool := decide (p.max ≤ 1024) && decide (p.min ≤ p.max)

/-- All three pairs are legal. -/
def legalPairs (t : PerColour Pair) : Bool := t.green.legal && t.yellow.legal && t.red.legal

def pairBytes (p : Pair) : List Byte := leBytes 2 p.min ++ leBytes 2 p.max

def pairsBytes (t : PerColour Pair) : List Byte := pairBytes t.green ++ pairBytes t.yellow ++ pairBytes t.red

/-! ### GLOBAL (R175) -/

/-- Every writable field of a GLOBAL entry passes (R44, R68, R70, R87, R94, R175). -/
def globalOk (d : List Byte) : Bool :=
  decide (16 ≤ numAt d 0 2) &&
  (decide (1 ≤ numAt d 2 2) && decide (numAt d 2 2 ≤ 1024) && decide (numAt d 4 2 ≤ 1023) &&
    decide (numAt d 4 2 < numAt d 2 2)) &&
  legalPairs (pairsAt d 6) && decide (natAt d 18 < 4) && decide (natAt d 19 < 4) && decide (natAt d 20 < 4) &&
  flagOk d 21 && (List.finRange 24).all fun g => decide (natAt d (22 + g.val) < 64)

/-- The record a passing GLOBAL entry holds. -/
def globalOf (d : List Byte) : GlobalRecord :=
  { tickPeriod := numAt d 0 2, holdOn := numAt d 2 2, holdOff := numAt d 4 2, thr := pairsAt d 6,
    lotLower := asFin 4 (natAt d 18), lotUpper := asFin 4 (natAt d 19), quiesceMode := quiesceOf (natAt d 20),
    statsEnable := flagAt d 21, enables := .ofFn fun g => BitVec.ofNat 6 (natAt d (22 + g.val)) }

/-- A GLOBAL entry as read. -/
def globalBytes (s : State) : List Byte :=
  leBytes 2 s.glob.tickPeriod ++ leBytes 2 s.glob.holdOn ++ leBytes 2 s.glob.holdOff ++ pairsBytes s.glob.thr ++
  [numByte s.glob.lotLower.val, numByte s.glob.lotUpper.val, quiesceByte s.glob.quiesceMode,
    flagByte s.glob.statsEnable] ++
  ((List.finRange 24).map fun g => numByte s.glob.enables[g].toNat) ++
  leBytes 2 s.loads.sharedLoad ++ leBytes 2 s.loads.sharedCapacity ++ leBytes 2 s.lottery.toNat ++
  [numByte s.sched.roundPtr.val, flagByte s.hold.glob]

/-! ### PORT (R176) -/

/-- Every writable field of a PORT entry passes (R27, R49, R69, R87, R176). -/
def portOk (d : List Byte) : Bool :=
  decide (natAt d 0 < 8) && meterOk (natAt d 1) && decide (natAt d 2 < 24) && flagOk d 3 &&
  ((List.finRange 4).all fun h => decide (1 ≤ natAt d (4 + h.val)) && decide (natAt d (4 + h.val) ≤ 3)) &&
  (decide (1 ≤ numAt d 8 2) && decide (numAt d 8 2 ≤ 1024)) && flagOk d 10 && flagOk d 11 &&
  (decide (1 ≤ numAt d 12 2) && decide (numAt d 12 2 ≤ 1024) && decide (numAt d 14 2 ≤ 1023) &&
    decide (numAt d 14 2 < numAt d 12 2)) &&
  flagOk d 16 && decide (natAt d 17 < 16) &&
  (decide (numAt d 18 3 ≤ 262142) && decide (1 ≤ numAt d 21 3) && decide (numAt d 21 3 ≤ 262143) &&
    decide (numAt d 18 3 < numAt d 21 3))

/-- The record a passing PORT entry holds. -/
def portOf (d : List Byte) : PortRecord :=
  { defClass := asFin 8 (natAt d 0), defMeter := meterOf (natAt d 1), defGroup := asFin 24 (natAt d 2),
    colourAware := flagAt d 3, colourMap := .ofFn fun h => colourOf (natAt d (4 + h.val)), limit := numAt d 8 2,
    globalPart := flagAt d 10, holdEn := flagAt d 11, holdOn := numAt d 12 2, holdOff := numAt d 14 2,
    paceEn := flagAt d 16, paceMeter := asFin 16 (natAt d 17), paceOn := numAt d 18 3, paceOff := numAt d 21 3 }

/-- A PORT entry as read. -/
def portBytes (s : State) (p : Fin 6) : List Byte :=
  let r := s.portRec[p]
  [numByte r.defClass.val, meterByte r.defMeter, numByte r.defGroup.val, flagByte r.colourAware] ++
  ((List.finRange 4).map fun h => colourByte r.colourMap[h]) ++ leBytes 2 r.limit ++
  [flagByte r.globalPart, flagByte r.holdEn] ++ leBytes 2 r.holdOn ++ leBytes 2 r.holdOff ++
  [flagByte r.paceEn, numByte r.paceMeter.val] ++ leBytes 3 r.paceOn ++ leBytes 3 r.paceOff ++
  leBytes 2 s.loads.portLoad[p] ++ [flagByte s.hold.port[p], flagByte s.hold.pace[p], flagByte (held s p)]

/-! ### CLASS (R177) -/

/-- Every writable field of a CLASS entry passes, the reservation sum apart (R67, R68, R107). -/
def classFieldsOk (d : List Byte) : Bool :=
  decide (natAt d 0 < 3) && (decide (1 ≤ natAt d 1) && decide (natAt d 1 ≤ 64)) && decide (numAt d 2 2 ≤ 512) &&
  legalPairs (pairsAt d 4) && (decide (natAt d 17 < 4) && decide (natAt d 18 < 4) && decide (natAt d 19 < 4))

/-- The reservation, with those the other seven classes hold, stays within 512 beats (R67). -/
def reservationOk (recs : Vector ClassRecord 8) (k : Fin 8) (res : Nat) : Bool :=
  decide (((List.finRange 8).map fun j => if j = k then res else recs[j].res).sum ≤ Config.reservationCap)

/-- The record a passing CLASS entry holds. -/
def classOf (d : List Byte) : ClassRecord :=
  { mode := schedOf (natAt d 0), weight := natAt d 1, res := numAt d 2 2, thr := pairsAt d 4,
    deadline := asFin 256 (natAt d 16),
    hintMap := ⟨asFin 4 (natAt d 17), asFin 4 (natAt d 18), asFin 4 (natAt d 19)⟩ }

/-- A CLASS entry as read. -/
def classBytes (s : State) (k : Fin 8) : List Byte :=
  let r := s.classRec[k]
  [schedByte r.mode, numByte r.weight] ++ leBytes 2 r.res ++ pairsBytes r.thr ++
  [numByte r.deadline.val, numByte r.hintMap.green.val, numByte r.hintMap.yellow.val, numByte r.hintMap.red.val,
    numByte s.sched.deficit[k], numByte s.queues[k].length] ++ leBytes 2 s.loads.occ[k]

/-! ### METER (R177) -/

/-- Every writable field of a METER entry passes (R56, R177). -/
def meterEntryOk (d : List Byte) : Bool :=
  decide (numAt d 2 3 ≤ Config.bucketMax) && decide (numAt d 5 3 ≤ Config.bucketMax) && flagOk d 8

/-- A METER entry as read: LOAD reads clear (R58). -/
def meterBytes (s : State) (m : Fin 16) : List Byte :=
  let r := s.meters[m]
  leBytes 2 r.cir ++ leBytes 3 r.cbs ++ leBytes 3 r.ebs ++ [0x00#8] ++ leBytes 3 r.c ++ leBytes 3 r.e

/-! ### RULE_PATTERN (R38, R179) -/

/-- A bit of the byte at an offset. -/
def bitAt (d : List Byte) (i b : Nat) : Bool := (byteAt d i).getLsbD b

/-- A pattern entry passes its check (R38). -/
def patternOk (d : List Byte) : Bool :=
  decide (natAt d 3 < 32) && (decide (1 ≤ natAt d 4) && decide (natAt d 4 ≤ 16)) &&
  (decide (1 ≤ natAt d 5) && decide (natAt d 5 ≤ 16)) && decide (natAt d 6 % 8 = 0) &&
  (if bitAt d 3 4 then decide (natAt d 11 % 8 = 0) else decide (numAt d 11 5 < 1024))

/-- The pattern a passing entry holds. -/
def patternOf (d : List Byte) : Pattern :=
  { valid := bitAt d 0 0, hasPorts := bitAt d 0 1, hasKind := bitAt d 0 2, hasAddr := bitAt d 0 3,
    hasBeats := bitAt d 0 4, hasTags := bitAt d 0 5, hasHints := bitAt d 0 6, hasPriv := bitAt d 0 7,
    ports := (byteAt d 1).setWidth 6, kind := if bitAt d 1 6 then .write else .read, priv := bitAt d 1 7,
    tags := byteAt d 2, hints := (byteAt d 3).setWidth 4,
    addr := if bitAt d 3 4 then .range (BitVec.ofNat 40 (numAt d 6 5)) (BitVec.ofNat 40 (numAt d 11 5))
      else .masked (BitVec.ofNat 40 (numAt d 6 5)) (BitVec.ofNat 10 (numAt d 11 2)),
    beatsMin := natAt d 4, beatsMax := natAt d 5 }

/-- A pattern entry as read. -/
def patternBytes (p : Pattern) : List Byte :=
  let isRange := match p.addr with
    | .masked _ _ => false
    | .range _ _ => true
  let a := match p.addr with
    | .masked a _ => a
    | .range a _ => a
  let b := match p.addr with
    | .masked _ m => m.toNat
    | .range _ b => b.toNat
  [numByte (bitsNat [p.valid, p.hasPorts, p.hasKind, p.hasAddr, p.hasBeats, p.hasTags, p.hasHints, p.hasPriv]),
    numByte (p.ports.toNat + 64 * (p.kind == .write).toNat + 128 * p.priv.toNat), p.tags,
    numByte (p.hints.toNat + 16 * isRange.toNat), numByte p.beatsMin, numByte p.beatsMax] ++
  leBytes 5 a.toNat ++ leBytes 5 b

/-! ### RULE_ACTION (R39, R180) -/

/-- The claim code in two bits of a byte, from bit `b` on. -/
def claimCodeAt (d : List Byte) (i b : Nat) : Nat := natAt d i / 2 ^ b % 4

def claimOf (n : Nat) : Claim := if n = 0 then .absent else if n = 1 then .set else .default

def claimCode : Claim → Nat
  | .absent => 0
  | .set => 1
  | .default => 2

/-- An action entry passes its check (R39). -/
def actionOk (d : List Byte) : Bool :=
  (decide (claimCodeAt d 0 0 < 3) && decide (claimCodeAt d 0 2 < 3) && decide (claimCodeAt d 0 4 < 3) &&
    decide (claimCodeAt d 0 6 < 3)) &&
  (decide (claimCodeAt d 1 0 < 3) && decide (claimCodeAt d 1 2 < 3) && decide (claimCodeAt d 1 4 < 3) &&
    decide (claimCodeAt d 1 6 = 0)) &&
  (decide (natAt d 2 < 8) && meterOk (natAt d 3) && decide (natAt d 4 < 24) && decide (natAt d 5 < 3) &&
    decide (natAt d 6 < 2) && decide (natAt d 8 < 4)) &&
  decide (numAt d 9 3 = 0)

/-- The action a passing entry holds. -/
def actionOf (d : List Byte) : Action :=
  { cls := ⟨claimOf (claimCodeAt d 0 0), asFin 8 (natAt d 2)⟩
    meter := ⟨claimOf (claimCodeAt d 0 2), meterOf (natAt d 3)⟩
    group := ⟨claimOf (claimCodeAt d 0 4), asFin 24 (natAt d 4)⟩
    disposition := ⟨claimOf (claimCodeAt d 0 6), dispositionOf (natAt d 5)⟩
    notify := ⟨claimOf (claimCodeAt d 1 0), natAt d 6 == 1⟩
    deadline := ⟨claimOf (claimCodeAt d 1 2), asFin 256 (natAt d 7)⟩
    hint := ⟨claimOf (claimCodeAt d 1 4), asFin 4 (natAt d 8)⟩ }

/-- An action entry as read. -/
def actionBytes (a : Action) : List Byte :=
  [numByte (claimCode a.cls.claim + 4 * claimCode a.meter.claim + 16 * claimCode a.group.claim +
      64 * claimCode a.disposition.claim),
    numByte (claimCode a.notify.claim + 4 * claimCode a.deadline.claim + 16 * claimCode a.hint.claim),
    numByte a.cls.value.val, meterByte a.meter.value, numByte a.group.value.val, dispositionByte a.disposition.value,
    flagByte a.notify.value, numByte a.deadline.value.val, numByte a.hint.value.val, 0x00#8, 0x00#8, 0x00#8]

/-! ### The read-only tables and the mask (R178) -/

/-- A COUNTERS entry as read (R151). -/
def countersBytes (s : State) (g : Fin 24) : List Byte :=
  (List.finRange 6).flatMap fun c => leBytes 4 s.counters.groups[g][c].toNat

/-- A TRACKER entry as read (R123). -/
def trackerBytes (t : TagState) : List Byte :=
  match t with
  | .free => List.replicate 17 0x00#8
  | .busy d =>
    [0x01#8, 0x00#8, numByte d.port.val, numByte d.tag.val, kindByte d.kind] ++ leBytes 5 d.address.toNat ++
    [numByte d.beats, numByte d.cls.val, colourByte d.colour, numByte d.group.val, flagByte d.critical,
      numByte d.deadline.val, numByte d.hint.val]
  | .orphan o =>
    [0x02#8, causeByte o.cause, numByte o.port.val, numByte o.tag.val, kindByte o.kind] ++ leBytes 5 o.address.toNat ++
    [numByte (o.lenM1.val + 1), 0x00#8, 0x00#8, 0x00#8, 0x00#8, 0x00#8, 0x00#8]

/-- The STATUS entry as read. -/
def statusBytes (s : State) : List Byte :=
  [s.events.sticky, numByte (levelFlags s).toNat] ++ leBytes 3 (bitsNat s.counters.half.toList) ++
  [opStateByte s.drain.opState, modeByte s.drain.mode, numByte s.activeBank.val,
    numByte (bitsNat [s.drain.command, s.drain.line]),
    numByte (bitsNat [s.cause.powerOn, s.cause.line, s.cause.governor]), numByte s.loads.liveCount] ++
  leBytes 2 s.loads.totalLoad

/-- The EVENT_MASK entry as read. -/
def maskBytes (s : State) : List Byte := leBytes 2 s.events.mask.toNat

/-- A mask entry names only the ten positions (R162). -/
def maskOk (d : List Byte) : Bool := decide (numAt d 0 2 < 1024)

/-! ### The entry an index names (R172) -/

/-- The rule index of an index byte, if it is in range: bits 0 to 6 (R172). -/
def ruleIndex (b : Byte) : Option (Fin 48) :=
  if h : b.toNat % 128 < 48 then some ⟨b.toNat % 128, h⟩ else none

/-- The bank of an index byte: bit 7 (R172). -/
def ruleBank (b : Byte) : Fin 2 := if b.getLsbD 7 then 1 else 0

/-- An index byte as an index below `n`, if it is in range (R172: the whole byte is the index). -/
def indexBelow (n : Nat) (b : Byte) : Option (Fin n) := if h : b.toNat < n then some ⟨b.toNat, h⟩ else none

/-- The entry a READ_ENTRY shifts out, `none` where the index is out of range (R172). -/
def entryBytes (s : State) (t : Table) (b : Byte) : Option (List Byte) :=
  match t with
  | .global => if b = 0#8 then some (globalBytes s) else none
  | .port => (indexBelow 6 b).map (portBytes s)
  | .cls => (indexBelow 8 b).map (classBytes s)
  | .meter => (indexBelow 16 b).map (meterBytes s)
  | .rulePattern => (ruleIndex b).map fun i => patternBytes s.rules[ruleBank b][i].pattern
  | .ruleAction => (ruleIndex b).map fun i => actionBytes s.rules[ruleBank b][i].action
  | .counters => (indexBelow 24 b).map (countersBytes s)
  | .tracker => (indexBelow 32 b).map fun t => trackerBytes s.tags[t]
  | .status => if b = 0#8 then some (statusBytes s) else none
  | .eventMask => if b = 0#8 then some (maskBytes s) else none

/-! ### Capture records (R181) -/

def outcomeByte : TakeOutcome → Byte
  | .admitted => 0x00#8
  | .retry .pool => 0x01#8
  | .retry .portLimit => 0x02#8
  | .retry .threshold => 0x03#8
  | .retry .lottery => 0x04#8
  | .deniedRule => 0x05#8

/-- A capture record as shifted out. -/
def captureBytes (c : CaptureRecord) : List Byte :=
  [numByte (c.rule.val + 64 * c.bank.val), numByte (c.port.val + 16 * c.tag.val), kindByte c.kind,
    numByte (c.lenM1.val + 1)] ++ leBytes 5 c.address.toNat ++
  [numByte c.cls.val, (c.colour.map colourByte).getD 0x00#8, outcomeByte c.outcome]

end Sys2Proof.Machine
end

