-- ==== Sys2Proof/Machine/Commands.lean ====
section
/-! DEFINITION. The commands of R171 other than the table accesses, and BAD_FRAME. A command's frame carries byte 1 at offset 0
of its bytes, byte 2 at offset 1 and its data from offset 2 on. -/

namespace Sys2Proof.Machine

/-! ### POP_CAPTURE -/

/-- The snapshot of a POP_CAPTURE: the record at the head, or zeros (R158). -/
def popSnapshot (s : State) : Snapshot :=
  { source := .popCapture, data := (s.captures.head?.map captureBytes).getD [], found := !s.captures.isEmpty }

/-- The end of a POP_CAPTURE of the right length (R158): the record returned is removed. -/
def popEnd (o : Snapshot) (s : State) : State × ResultCode :=
  if o.found then ({ s with captures := s.captures.tail }, .done) else (s, .empty)

/-- POP_CAPTURE (R158). -/
def execPopCapture (m : FrameMoment) (f : FrameBits) (s : State) : Host.Outcome State Fault Refusal :=
  readFrame s m f 1 Command.popCapture.frameLength (popSnapshot s) popEnd

/-! ### Banks, counters, events, causes -/

/-- The banks exchanged (R41). -/
def swapAct (s : State) : State × ResultCode := ({ s with activeBank := s.activeBank + 1 }, .done)

/-- SWAP_BANKS (R41). -/
def execSwapBanks (f : FrameBits) (s : State) : Host.Outcome State Fault Refusal := commandFrame s .swapBanks f swapAct

/-- One group cleared, by the group number in byte 2 (R152). -/
def clearGroupAct (f : FrameBits) (s : State) : State × ResultCode :=
  match indexBelow 24 (byteAt f.bytes 1) with
  | none => (s, .refused)
  | some g => ({ s with counters := clearedGroup s.counters g }, .done)

/-- CLEAR_GROUP (R152). -/
def execClearGroup (f : FrameBits) (s : State) : Host.Outcome State Fault Refusal :=
  commandFrame s .clearGroup f (clearGroupAct f)

/-- Every counter and half bit cleared (R153). -/
def clearAllAct (s : State) : State × ResultCode := ({ s with counters := .reset }, .done)

/-- CLEAR_ALL_COUNTERS (R153). -/
def execClearAllCounters (f : FrameBits) (s : State) : Host.Outcome State Fault Refusal :=
  commandFrame s .clearAllCounters f clearAllAct

/-- The half bits with those of a group set cleared (R163). -/
def halfWithout (half : Vector Bool 24) (groups : Nat) : Vector Bool 24 :=
  .ofFn fun g => half[g] && !groups.testBit g.val

/-- The named events and half bits cleared (R163): byte 3 is the event set, bytes 4 to 7 the group set (R171). -/
def clearEventsAct (f : FrameBits) (s : State) : State × ResultCode :=
  if numAt f.bytes 3 4 < 2 ^ 24 then
    ({ s with
       events := { s.events with sticky := s.events.sticky &&& ~~~(byteAt f.bytes 2) }
       counters := { s.counters with half := halfWithout s.counters.half (numAt f.bytes 3 4) } }, .done)
  else (s, .refused)

/-- CLEAR_EVENTS (R163). -/
def execClearEvents (f : FrameBits) (s : State) : Host.Outcome State Fault Refusal :=
  commandFrame s .clearEvents f (clearEventsAct f)

/-- The reset cause record cleared (R164). -/
def clearCauseAct (s : State) : State × ResultCode := ({ s with cause := ⟨false, false, false⟩ }, .done)

/-- CLEAR_CAUSE (R164). -/
def execClearCause (f : FrameBits) (s : State) : Host.Outcome State Fault Refusal :=
  commandFrame s .clearCause f clearCauseAct

/-! ### Drain Controller -/

/-- DRAIN by operating state (R96). -/
def drainAct (s : State) : State × ResultCode :=
  if s.drain.opState = .running then (setRequests s true s.drain.line, .done) else (s, .busy)

/-- DRAIN (R96). -/
def execDrain (f : FrameBits) (s : State) : Host.Outcome State Fault Refusal := commandFrame s .drain f drainAct

/-- LINE after a RELEASE: it stays only under LEVEL_LOW (R97). -/
def lineAfterRelease (s : State) : Bool := s.drain.line && s.glob.quiesceMode == .levelLow

/-- RELEASE (R97). -/
def releaseAct (s : State) : State × ResultCode :=
  (setRequests s false (lineAfterRelease s), if lineAfterRelease s then .busy else .done)

/-- RELEASE (R97). -/
def execRelease (f : FrameBits) (s : State) : Host.Outcome State Fault Refusal := commandFrame s .release f releaseAct

/-- The mode a byte carries (R171, R173). -/
def modeOf (b : Byte) : Option Mode := if b = 0x00#8 then some .bypass else if b = 0x01#8 then some .enforce else none

/-- A change of mode (R92, R101): to BYPASS every latch is OFF, to ENFORCE every latch is evaluated from OFF. -/
def changeMode (s : State) (m : Mode) : State :=
  let s1 := { s with drain := { s.drain with mode := m }, hold := .reset }
  noteHold s (evalLatches s1 true (fun _ => true) fun _ => true)

/-- SET_MODE by carried value and operating state (R101). -/
def setModeAct (f : FrameBits) (s : State) : State × ResultCode :=
  match modeOf (byteAt f.bytes 2) with
  | none => (s, .refused)
  | some m =>
    if s.drain.opState = .drained then (if m = s.drain.mode then s else changeMode s m, .done) else (s, .busy)

/-- SET_MODE (R101). -/
def execSetMode (f : FrameBits) (s : State) : Host.Outcome State Fault Refusal := commandFrame s .setMode f (setModeAct f)

/-! ### Lottery, tags -/

/-- The lottery register written (R80). -/
def setSeedAct (f : FrameBits) (s : State) : State × ResultCode :=
  if numAt f.bytes 2 2 = 0 then (s, .refused) else ({ s with lottery := BitVec.ofNat 16 (numAt f.bytes 2 2) }, .done)

/-- SET_SEED (R80). -/
def execSetSeed (f : FrameBits) (s : State) : Host.Outcome State Fault Refusal := commandFrame s .setSeed f (setSeedAct f)

/-- A tag after a reclaim (R137). -/
def TagState.reclaimed : TagState → TagState
  | .free => .free
  | .busy d => .busy d
  | .orphan _ => .free

/-- Every ORPHAN tag FREE (R137). -/
def reclaimAct (s : State) : State × ResultCode := ({ s with tags := .ofFn fun t => s.tags[t].reclaimed }, .done)

/-- RECLAIM_TAGS (R137). -/
def execReclaimTags (f : FrameBits) (s : State) : Host.Outcome State Fault Refusal :=
  commandFrame s .reclaimTags f reclaimAct

/-! ### GOVERNOR_RESET -/

/-- A tag after a governor reset (R140). -/
def TagState.governorReset : TagState → TagState
  | .free => .free
  | .busy d => .orphan (d.orphaned .reset)
  | .orphan o => .orphan o

/-- The governor reset (R182): every live transaction is answered FAULT/RESET, BUSY tags become ORPHAN, the blocks take their
reset values and START_HELD is sampled. The request slots, the kept tags, POWER_ON and LINE, and the Management Port stay. -/
def governorReset (s : State) (startHeld : Bool) : State :=
  { State.reset with
    pins := { s.pins with startHeld := startHeld }
    ports := .ofFn fun p => { s.ports[p] with tagLive := .replicate 8 false }
    drain := .reset startHeld
    tags := .ofFn fun t => s.tags[t].governorReset
    cause := { s.cause with governor := true }
    mgmt := s.mgmt
    out := (respondAll s (liveDescriptors s) (.fault .reset)).out
    pending := s.pending }

/-- GOVERNOR_RESET (R182). -/
def execGovernorReset (startHeld : Bool) (f : FrameBits) (s : State) : Host.Outcome State Fault Refusal :=
  commandFrame s .governorReset f fun t => (governorReset t startHeld, .done)

/-! ### BAD_FRAME -/

/-- BAD_FRAME (R170): a frame that names no command or no table is discarded at its end. It has no read data. -/
def badFrameEvent (s : State) (f : FrameBits) : State :=
  if frameReady s then
    if f.ended then discardFrame (withSdo s.quiet (shiftedOut s f 0 [])) else leaveOpen s ⟨none, shiftedOut s f 0 []⟩
  else s.quiet

/-- BAD_FRAME (R170). -/
def execBadFrame (f : FrameBits) (s : State) : Host.Outcome State Fault Refusal := .next (badFrameEvent s f)

end Sys2Proof.Machine
end

