-- ==== Sys2Proof/Machine/Lines.lean ====
section
/-! DEFINITION. The lines: QUIESCE_CHANGE (Chapter 5), the two resets that last for a time and their end (Chapter 11), and CS_N
after a reset (R183). -/

namespace Sys2Proof.Machine

/-! ### QUIESCE -/

/-- LINE in the drain request set after an edge, by `quiesce_mode` (R98). -/
def lineAfter (m : QuiesceMode) (e : Edge) (line : Bool) : Bool :=
  match m, e with
  | .off, _ => line
  | .levelLow, .falling => true
  | .levelLow, .rising => false
  | .falling, .falling => true
  | .falling, .rising => line
  | .rising, .rising => true
  | .rising, .falling => line

/-- The QUIESCE line at its new level. -/
def withQuiesce (s : State) (e : Edge) : State := { s with pins := { s.pins with quiesceHigh := e == .rising } }

/-- An edge of QUIESCE acts on the drain request set (R98). -/
def quiesceEvent (e : Edge) (s : State) : State :=
  setRequests s s.drain.command (lineAfter s.glob.quiesceMode e s.drain.line)

/-- QUIESCE_CHANGE (R98). During a reset the change acts on nothing (R186), but the level is the one that stands. -/
def execQuiesceChange (e : Edge) (s : State) : Host.Outcome State Fault Refusal :=
  whileRunning (withQuiesce s e) (quiesceEvent e)

/-! ### Resets that last for a time -/

/-- The part held in a power-on or line reset: every block holds its reset values (R187), nothing is answered, and what the
initiators place on their request channels stays theirs (R15, R184). A frame in progress is abandoned, with what SDO has carried in
it (R183). The Drain Controller's state is not yet sampled (log 7). -/
def inReset (s : State) (ph : Phase) (cause : ResetCause) (resetNHigh : Bool) : State :=
  { State.reset with
    phase := ph
    pins := { s.pins with resetNHigh := resetNHigh }
    ports := .ofFn fun p => { PortState.reset with channel := s.ports[p].channel }
    cause := cause
    out := s.quietOut
    pending := s.pending }

/-- POWER_ON_RESET (R187, R164): power is applied, and the record shows POWER_ON alone. -/
def execPowerOnReset (s : State) : Host.Outcome State Fault Refusal :=
  .next (inReset s .powerOnReset ⟨true, false, false⟩ s.pins.resetNHigh)

/-- RESET_N goes low (R164). During a power-on reset only the level changes: whether it is a line reset as well is decided
as the power-on reset ends (log 11). During a line reset it is low already. -/
def lineResetEvent (s : State) : State :=
  match s.phase with
  | .running => inReset s .lineReset { s.cause with line := true } false
  | .powerOnReset => { s.quiet with pins := { s.pins with resetNHigh := false } }
  | .lineReset => s.quiet

/-- LINE_RESET (R187, R164). -/
def execLineReset (s : State) : Host.Outcome State Fault Refusal := .next (lineResetEvent s)

/-- A port as a reset ends: a request still presented is captured, as a fresh presentation (R15, R187); one that is no longer
presented is gone. -/
def portAtResetEnd (p : PortState) (still : Bool) : PortState :=
  { p with channel := if still then p.channel else none, slot := if still then p.channel else none }

/-- The part leaves reset: one event at every block (R187). -/
def leaveReset (s : State) (e : ResetEnd) : State :=
  { s.quiet with
    phase := .running
    pins := { s.pins with resetNHigh := true, startHeld := e.startHeld }
    ports := .ofFn fun p => portAtResetEnd s.ports[p] (e.stillPresenting.getLsbD p.val)
    tickCounter := 0
    drain := .reset e.startHeld
    mgmt := { s.mgmt with awaitCsHigh := e.csNLow } }

/-- The end of a power-on reset, or RESET_N high again. A part whose power-on reset ends with RESET_N low stays in reset, and
that is a line reset as well (R164). -/
def endOfResetEvent (s : State) (e : ResetEnd) : State :=
  match s.phase with
  | .running => s.quiet
  | .powerOnReset =>
    if e.resetNHigh then leaveReset s e
    else { s.quiet with
      phase := .lineReset, pins := { s.pins with resetNHigh := false }, cause := { s.cause with line := true } }
  | .lineReset => if e.resetNHigh then leaveReset s e else s.quiet

/-- END_OF_RESET (R187). -/
def execEndOfReset (e : ResetEnd) (s : State) : Host.Outcome State Fault Refusal := .next (endOfResetEvent s e)

/-- CS_N goes high: the Management Port can begin a frame again (R183). -/
def csHighEvent (s : State) : State := { s with mgmt := { s.mgmt with awaitCsHigh := false } }

/-- CS_N_HIGH_AFTER_RESET (R183). -/
def execCsNHighAfterReset (s : State) : Host.Outcome State Fault Refusal := whileRunning s csHighEvent

end Sys2Proof.Machine
end

