-- ==== Sys2Proof/Machine/Memory.lean ====
section
/-! DEFINITION. The memory port: ISSUE with the Memory Scheduler (Chapter 6), COMPLETION with the Issue Tracker (Chapter 7). -/

namespace Sys2Proof.Machine

/-! ### The Memory Scheduler -/

/-- The classes in order from a class on, cyclically (R110). -/
def classesFrom (k : Fin 8) : List (Fin 8) := [k, k + 1, k + 2, k + 3, k + 4, k + 5, k + 6, k + 7]

/-- The class has work and this scheduling mode (R104, R109). -/
def hasWork (s : State) (m : SchedMode) (k : Fin 8) : Bool := s.classRec[k].mode == m && !s.queues[k].isEmpty

/-- The load of the descriptor at the head of a queue. -/
def headLoad (s : State) (k : Fin 8) : Nat := (s.queues[k].head?.map Descriptor.beats).getD 0

/-- What a weighted round ends with: the class chosen, with the round pointer set to it, and the deficits (R110). -/
structure Round where
  cls     : Fin 8
  deficit : Vector Nat 8
deriving DecidableEq, Repr

/-- The visits of one weighted round from a pointer and deficits, at most `n` of them (R110; log 14). -/
def visits (s : State) : Nat → Fin 8 → Vector Nat 8 → Option Round
  | 0, _, _ => none
  | n + 1, ptr, deficit =>
    match (classesFrom ptr).find? (hasWork s .weighted) with
    | none => none
    | some k =>
      if headLoad s k ≤ deficit[k] then some ⟨k, deficit⟩
      else visits s n (k + 1) (deficit.set k (deficit[k] + s.classRec[k].weight))

/-- The weighted round at an issue (R110). -/
def weightedRound (s : State) : Option Round := visits s Config.visitBound s.sched.roundPtr s.sched.deficit

/-- The scheduler after the head of a weighted class has gone (R111). -/
def afterWeighted (s : State) (r : Round) : Sched :=
  if s.queues[r.cls].tail.isEmpty then ⟨r.cls + 1, r.deficit.set r.cls 0⟩
  else ⟨r.cls, r.deficit.set r.cls (r.deficit[r.cls] - headLoad s r.cls)⟩

/-- The class whose head goes to memory and the scheduler after it (R109, R111). -/
def chooseClass (s : State) : Option (Fin 8 × Sched) :=
  match (List.finRange 8).find? (hasWork s .strictHigh) with
  | some k => some (k, s.sched)
  | none =>
    match (List.finRange 8).find? (hasWork s .weighted) with
    | some _ => (weightedRound s).map fun r => (r.cls, afterWeighted s r)
    | none => ((List.finRange 8).find? (hasWork s .strictLow)).map fun k => (k, s.sched)

/-- The lowest-numbered FREE downstream tag (R114). -/
def lowestFreeTag (s : State) : Option (Fin 32) := (List.finRange 32).find? fun t => s.tags[t].isFree

/-- A live WRITE's data in the Write Data Store. -/
def storedData (s : State) (ref : Fin 6 × Fin 8) : List DataBeat :=
  ((s.writeStore.find? fun w => w.port == ref.1 && w.tag == ref.2).map WriteSpace.data).getD []

/-- The downstream request of a descriptor (R113). -/
def downstreamOf (s : State) (t : Fin 32) (d : Descriptor) : DownstreamRequest :=
  { dtag := t, kind := d.kind, address := d.address, lenM1 := d.lenM1, hint := d.hint,
    data := d.dataRef.map (storedData s) }

/-- The head `d` of class `k` is issued under tag `t` (R108): it leaves its queue, its tag becomes BUSY and the request is
handed over. -/
def issueHead (s : State) (k : Fin 8) (sched : Sched) (t : Fin 32) (d : Descriptor) (rest : List Descriptor) : State :=
  { s with
    queues := s.queues.set k rest
    sched := sched
    tags := s.tags.set t (.busy { d with state := .issued, dtag := some t })
    out := { s.out with downstream := some (downstreamOf s t d) } }

/-- An issue, or nothing where a tag or work is wanting (R108). -/
def issueReady (s : State) : State :=
  match lowestFreeTag s, chooseClass s with
  | some t, some (k, sched) =>
    match s.queues[k] with
    | d :: rest => issueHead s k sched t d rest
    | [] => s
  | _, _ => s

/-- The level of the memory controller's ready indication (R108, R115; log 9). -/
def withReady (s : State) (ready : Bool) : State := { s with pins := { s.pins with memReady := ready } }

/-- An issue follows while memory is ready (R108). -/
def issueEvent (s : State) : State := if s.pins.memReady then issueReady s else s

/-- ISSUE (R108). While the part is in reset the memory port presents nothing (R185). -/
def execIssue (ready : Bool) (s : State) : Host.Outcome State Fault Refusal := whileRunning (withReady s ready) issueEvent

/-! ### COMPLETION -/

/-- The read data of an OKAY response, fitted to the descriptor's beats (R126). -/
def readDataFor (d : Descriptor) (data : List Beat) : Option (List Beat) :=
  match d.kind with
  | .read => some (fitTo 0#64 d.beats data)
  | .write => none

/-- An OKAY completion on a BUSY tag (R125). -/
def completeOkay (s : State) (t : Fin 32) (d : Descriptor) (data : List Beat) : State :=
  let s1 := respond s d.port ⟨d.tag, .okay, readDataFor d data⟩
  handOn (freeDescriptors { s1 with tags := s1.tags.set t .free } [d]) [d]

/-- An ERROR completion on a BUSY tag (R127). -/
def completeError (s : State) (t : Fin 32) (d : Descriptor) : State :=
  let s1 := respond s d.port (plainResponse d.tag (.fault .memory))
  let s2 := (count s1 d.group .faulted 1).raise .memoryError
  handOn (freeDescriptors { s2 with tags := s2.tags.set t .free } [d]) [d]

/-- A completion taken by the state of its tag (R124 to R129). -/
def completionEvent (t : Fin 32) (status : MemStatus) (data : List Beat) (s : State) : State :=
  noteHold s (match s.tags[t] with
    | .busy d =>
      match status with
      | .okay => completeOkay s t d data
      | .error => completeError s t d
    | .orphan _ => { s with tags := s.tags.set t .free }
    | .free => s.raise .strayCompletion)

/-- COMPLETION (R124). During a reset completions are discarded (R185). -/
def execCompletion (t : Fin 32) (status : MemStatus) (data : List Beat) (s : State) :
    Host.Outcome State Fault Refusal :=
  whileRunning s (completionEvent t status data)

end Sys2Proof.Machine
end

