-- ==== Sys2Proof/Machine/Tables.lean ====
section
/-! DEFINITION. READ_ENTRY, WRITE_ENTRY and the writes of the writable tables (R172 to R180). -/

namespace Sys2Proof.Machine

/-! ### READ_ENTRY -/

/-- The snapshot of a READ_ENTRY: the entry as it stands, or zeros where the index is out of range (R169, R172). -/
def readSnapshot (s : State) (t : Table) (b : Byte) : Snapshot :=
  { source := .readEntry t, data := (entryBytes s t b).getD [], found := (entryBytes s t b).isSome }

/-- The end of a READ_ENTRY of the right length (R172). -/
def readEnd (o : Snapshot) (s : State) : State × ResultCode := (s, if o.found then .done else .refused)

/-- READ_ENTRY (R172). -/
def execReadEntry (m : FrameMoment) (t : Table) (f : FrameBits) (s : State) : Host.Outcome State Fault Refusal :=
  readFrame s m f 2 t.frameLength (readSnapshot s t (f.bytes.headD 0#8)) readEnd

/-! ### Writes -/

/-- A write that is refused: nothing changes (R174). -/
def refuseWrite (s : State) : State × ResultCode := (s, .refused)

/-- WRITE_ENTRY to COUNTERS, TRACKER or STATUS (R172): refused, whatever it carries. -/
def execWriteEntry (t : ReadOnlyTable) (f : FrameBits) (s : State) : Host.Outcome State Fault Refusal :=
  tableFrame s t.table f fun _ _ => refuseWrite

/-- A done GLOBAL write (R44, R90, R99, R148): the record is replaced, the tick counter starts again, LINE is readjusted and the
global latch is evaluated. -/
def applyGlobal (s : State) (r : GlobalRecord) : State :=
  let s1 := { s with glob := r, tickCounter := 0 }
  let s2 := setRequests s1 s.drain.command (r.quiesceMode == .levelLow && !s.pins.quiesceHigh)
  noteHold s (evalLatches s2 true (fun _ => false) fun _ => false)

/-- A GLOBAL write of the right length (R174, R175). -/
def writeGlobalEntry (b : Byte) (d : List Byte) (s : State) : State × ResultCode :=
  if b = 0#8 ∧ globalOk d then (applyGlobal s (globalOf d), .done) else refuseWrite s

/-- WRITE_GLOBAL (R175). -/
def execWriteGlobal (f : FrameBits) (s : State) : Host.Outcome State Fault Refusal :=
  tableFrame s .global f writeGlobalEntry

/-- A done PORT write (R90): the record is replaced and the port's port and pace latches are evaluated. -/
def applyPort (s : State) (p : Fin 6) (r : PortRecord) : State :=
  noteHold s (evalLatches { s with portRec := s.portRec.set p r } false (fun q => q == p) fun q => q == p)

/-- A PORT write of the right length (R174, R176). -/
def writePortEntry (b : Byte) (d : List Byte) (s : State) : State × ResultCode :=
  match indexBelow 6 b with
  | none => refuseWrite s
  | some p => if portOk d then (applyPort s p (portOf d), .done) else refuseWrite s

/-- WRITE_PORT (R176). -/
def execWritePort (f : FrameBits) (s : State) : Host.Outcome State Fault Refusal := tableFrame s .port f writePortEntry

/-- A done CLASS write (R84, R107): the record is replaced, the class's deficit is 0, and the shared figures are recomputed. -/
def applyClass (s : State) (k : Fin 8) (r : ClassRecord) : State :=
  { s with
    classRec := s.classRec.set k r
    sched := { s.sched with deficit := s.sched.deficit.set k 0 }
    loads := s.loads.recompute (s.classRec.set k r) }

/-- A CLASS write of the right length (R67, R107, R174, R177). -/
def writeClassEntry (b : Byte) (d : List Byte) (s : State) : State × ResultCode :=
  match indexBelow 8 b with
  | none => refuseWrite s
  | some k =>
    if classFieldsOk d && reservationOk s.classRec k (numAt d 2 2) then (applyClass s k (classOf d), .done)
    else refuseWrite s

/-- WRITE_CLASS (R107). -/
def execWriteClass (f : FrameBits) (s : State) : Host.Outcome State Fault Refusal := tableFrame s .cls f writeClassEntry

/-- A meter after a done write: rates and sizes replaced, tokens clipped (R56), or both buckets filled with LOAD (R57). -/
def meterWritten (m : Meter) (d : List Byte) : Meter :=
  { cir := numAt d 0 2, cbs := numAt d 2 3, ebs := numAt d 5 3,
    c := if flagAt d 8 then numAt d 2 3 else min m.c (numAt d 2 3),
    e := if flagAt d 8 then numAt d 5 3 else min m.e (numAt d 5 3) }

/-- The write lowered C by clipping, or filled it with LOAD: the Hold Monitor evaluates the meter's pace latches (R90). -/
def meterWriteWatched (m : Meter) (d : List Byte) : Bool := flagAt d 8 || decide (numAt d 2 3 < m.c)

/-- A done METER write (R56, R57, R90). -/
def applyMeter (s : State) (m : Fin 16) (d : List Byte) : State :=
  noteHold s (evalLatches { s with meters := s.meters.set m (meterWritten s.meters[m] d) } false (fun _ => false)
    fun q => meterWriteWatched s.meters[m] d && s.portRec[q].paceMeter == m)

/-- A METER write of the right length (R56, R57, R174, R177). -/
def writeMeterEntry (b : Byte) (d : List Byte) (s : State) : State × ResultCode :=
  match indexBelow 16 b with
  | none => refuseWrite s
  | some m => if meterEntryOk d then (applyMeter s m d, .done) else refuseWrite s

/-- WRITE_METER (R56). -/
def execWriteMeter (f : FrameBits) (s : State) : Host.Outcome State Fault Refusal := tableFrame s .meter f writeMeterEntry

/-- METER_LOAD (R57): a METER frame whose LOAD byte is 01h; the frame's own bytes carry LOAD (log 16). -/
def execMeterLoad (f : FrameBits) (s : State) : Host.Outcome State Fault Refusal := tableFrame s .meter f writeMeterEntry

/-- One rule of one bank replaced. -/
def setRule (s : State) (b : Fin 2) (i : Fin 48) (r : Rule) : State :=
  { s with rules := s.rules.set b (s.rules[b].set i r) }

/-- A pattern write of the right length: to the EDIT bank, checked (R37, R38). -/
def writePatternEntry (b : Byte) (d : List Byte) (s : State) : State × ResultCode :=
  match ruleIndex b with
  | none => refuseWrite s
  | some i =>
    if ruleBank b ≠ s.activeBank ∧ patternOk d then
      (setRule s (ruleBank b) i { s.rules[ruleBank b][i] with pattern := patternOf d }, .done)
    else refuseWrite s

/-- WRITE_RULE_PATTERN (R38). -/
def execWriteRulePattern (f : FrameBits) (s : State) : Host.Outcome State Fault Refusal :=
  tableFrame s .rulePattern f writePatternEntry

/-- An action write of the right length: to the EDIT bank, checked (R37, R39). -/
def writeActionEntry (b : Byte) (d : List Byte) (s : State) : State × ResultCode :=
  match ruleIndex b with
  | none => refuseWrite s
  | some i =>
    if ruleBank b ≠ s.activeBank ∧ actionOk d then
      (setRule s (ruleBank b) i { s.rules[ruleBank b][i] with action := actionOf d }, .done)
    else refuseWrite s

/-- WRITE_RULE_ACTION (R39). -/
def execWriteRuleAction (f : FrameBits) (s : State) : Host.Outcome State Fault Refusal :=
  tableFrame s .ruleAction f writeActionEntry

/-- A mask write of the right length (R162). -/
def writeMaskEntry (b : Byte) (d : List Byte) (s : State) : State × ResultCode :=
  if b = 0#8 ∧ maskOk d then ({ s with events := { s.events with mask := BitVec.ofNat 10 (numAt d 0 2) } }, .done)
  else refuseWrite s

/-- WRITE_EVENT_MASK (R162). -/
def execWriteEventMask (f : FrameBits) (s : State) : Host.Outcome State Fault Refusal :=
  tableFrame s .eventMask f writeMaskEntry

end Sys2Proof.Machine
end

