-- ==== Sys2Proof/Machine/Classify.lean ====
section
/-! DEFINITION. What the Classifier and the Meter Bank do at a take: the port the arbiter grants (Chapter 1), matching and
resolution (Chapter 2), the colour and its charge (Chapter 3). Nothing here changes the state. -/

namespace Sys2Proof.Machine

/-! ### Eligibility and grant -/

/-- The port is eligible at a take (R11). -/
def eligible (s : State) (p : Fin 6) : Bool :=
  match s.ports[p].slot with
  | none => false
  | some r => !s.ports[p].tagLive[r.tag] && !held s p && s.drain.opState == .running

/-- The order in which the arbiter visits the ports from a pointer value (R13). -/
def grantOrder (n : Fin 6) : List (Fin 6) := [n + 1, n + 2, n + 3, n + 4, n + 5, n]

/-- The port the arbiter grants, if one is eligible (R12, R13). -/
def grant (s : State) : Option (Fin 6) := (grantOrder s.lastGranted).find? (eligible s)

/-- The request runs from one 4096-byte page into the next (R6). -/
def crossesPage (r : Request) : Bool := decide (Config.pageBytes < r.address.toNat % Config.pageBytes + r.beats * 8)

/-! ### Matching -/

/-- Nibble `i` of an address. -/
def nibble (a : Addr) (i : Fin 10) : BitVec 4 := a.extractLsb' (4 * i.val) 4

/-- The address field matches (R23, R24). -/
def AddrMatch.hits (m : AddrMatch) (x : Addr) : Bool :=
  match m with
  | .masked a mask => (List.finRange 10).all fun i => mask.getLsbD i.val || nibble x i == nibble a i
  | .range a b => decide (a ≤ x) && decide (x ≤ b)

/-- The pattern matches a request taken from a port (R20 to R24). -/
def Pattern.hits (t : Pattern) (p : Fin 6) (r : Request) : Bool :=
  t.valid &&
  (!t.hasPorts || t.ports.getLsbD p.val) &&
  (!t.hasKind || t.kind == r.kind) &&
  (!t.hasAddr || t.addr.hits r.address) &&
  (!t.hasBeats || (decide (t.beatsMin ≤ r.beats) && decide (r.beats ≤ t.beatsMax))) &&
  (!t.hasTags || t.tags.getLsbD r.tag.val) &&
  (!t.hasHints || t.hints.getLsbD r.hint.val) &&
  (!t.hasPriv || t.priv == r.priv)

/-- The matching rules of the ACTIVE bank, lowest index first: each rule is tested once (R20, R28). -/
def matching (s : State) (p : Fin 6) (r : Request) : List (Fin 48) :=
  (List.finRange 48).filter fun i => s.rules[s.activeBank][i].pattern.hits p r

/-! ### Resolution -/

/-- The deciding rule of one action type: the lowest-indexed matching rule whose claim is SET or DEFAULT (R28). -/
def decidingRule {α : Type} (bank : Vector Rule 48) (hits : List (Fin 48)) (sel : Action → Claimed α) :
    Option (Fin 48) :=
  hits.find? fun i => (sel bank[i].action).claim != .absent

/-- The value a deciding rule gives: its own under SET, `none` where the type takes its default (R26, R28). -/
def setValue {α : Type} (bank : Vector Rule 48) (dec : Option (Fin 48)) (sel : Action → Claimed α) : Option α :=
  match dec with
  | none => none
  | some i => if (sel bank[i].action).claim = .set then some (sel bank[i].action).value else none

/-- The value claimed by SET for one action type, `none` where it takes its default. -/
def claimedValue {α : Type} (bank : Vector Rule 48) (hits : List (Fin 48)) (sel : Action → Claimed α) : Option α :=
  setValue bank (decidingRule bank hits sel) sel

/-- One value for a colour. -/
def PerColour.pick {α : Type} (t : PerColour α) : Colour → α
  | .green => t.green
  | .yellow => t.yellow
  | .red => t.red

/-- The result of resolution (R28 to R30). `capture` is the deciding rule for NOTIFY when NOTIFY resolved to YES, `hintSet`
the value claimed by SET for HINT. -/
structure Resolution where
  cls         : Fin 8
  meter       : Option (Fin 16)
  group       : Fin 24
  disposition : Disposition
  capture     : Option (Fin 48)
  deadline    : Fin 256
  hintSet     : Option (Fin 4)
deriving DecidableEq, Repr

/-- Resolution of a request taken in ENFORCE mode, with the defaults of R26. -/
def resolve (s : State) (p : Fin 6) (r : Request) : Resolution :=
  let bank := s.rules[s.activeBank]
  let hits := matching s p r
  let k := (claimedValue bank hits Action.cls).getD s.portRec[p].defClass
  { cls := k
    meter := (claimedValue bank hits Action.meter).getD s.portRec[p].defMeter
    group := (claimedValue bank hits Action.group).getD s.portRec[p].defGroup
    disposition := (claimedValue bank hits Action.disposition).getD .pass
    capture :=
      if claimedValue bank hits Action.notify = some true then decidingRule bank hits Action.notify else none
    deadline := (claimedValue bank hits Action.deadline).getD s.classRec[k].deadline
    hintSet := claimedValue bank hits Action.hint }

/-- The hint of a transaction: the claimed one, or the class's for the colour (R29). -/
def resolvedHint (s : State) (res : Resolution) (c : Colour) : Fin 4 :=
  res.hintSet.getD (s.classRec[res.cls].hintMap.pick c)

/-! ### Colour and charge -/

/-- The pre-colour of a request: green on a colour-blind port, the map's on a colour-aware one (R49 to R51). -/
def preColour (r : PortRecord) (hint : Fin 4) : Colour := if r.colourAware then r.colourMap[hint] else .green

/-- The colour a meter gives a transaction of `n` bytes under a pre-colour (R50, R51). -/
def Meter.colour (m : Meter) (pre : Colour) (n : Nat) : Colour :=
  match pre with
  | .green => if n ≤ m.c then .green else if n ≤ m.e then .yellow else .red
  | .yellow => if n ≤ m.e then .yellow else .red
  | .red => .red

/-- The colour given at the meter step; without a meter it is the pre-colour (R50 to R52). -/
def colourAt (s : State) (p : Fin 6) (r : Request) (meter : Option (Fin 16)) : Colour :=
  match meter with
  | none => preColour s.portRec[p] r.hint
  | some m => s.meters[m].colour (preColour s.portRec[p] r.hint) r.size

/-- A meter charged for an admitted transaction of `n` bytes (R54). -/
def Meter.charge (m : Meter) (c : Colour) (n : Nat) : Meter :=
  match c with
  | .green => { m with c := m.c - n }
  | .yellow => { m with e := m.e - n }
  | .red => m

/-- The Meter Bank after the charge of an admission (R54). -/
def chargeMeters (ms : Vector Meter 16) (meter : Option (Fin 16)) (c : Colour) (n : Nat) : Vector Meter 16 :=
  match meter with
  | none => ms
  | some m => ms.set m (ms[m].charge c n)

/-- The charge changed a bucket of meter `j` (R54, R90). -/
def charged (meter : Option (Fin 16)) (c : Colour) (j : Fin 16) : Bool :=
  meter == some j && c != .red

end Sys2Proof.Machine
end

