-- ==== Sys2Proof/Machine/Admission.lean ====
section
/-! DEFINITION. The Admission Unit: the ENFORCE and BYPASS decisions, the thresholds, the lottery and what an admission
creates (Chapter 4). -/

namespace Sys2Proof.Machine

/-- The outcome of an admission decision (R72). -/
inductive Decision
  | accept
  | refuse (reason : RetryReason)
deriving DecidableEq, Repr

/-- Step 1: no descriptor is free, or the pool has no room for the load (R72). -/
def poolFull (l : Loads) (n : Nat) : Bool :=
  decide (l.liveCount = Config.descriptorLimit) || decide (Config.poolBeats < l.totalLoad + n)

/-- The load the transaction would add to the shared area (R73). -/
def excess (occ res n : Nat) : Nat := (occ + n - res) - (occ - res)

/-- The shared area has no room for the excess (R73, R76). -/
def sharedFull (s : State) (k : Fin 8) (n : Nat) : Bool :=
  decide (s.loads.sharedCapacity < s.loads.sharedLoad + excess s.loads.occ[k] s.classRec[k].res n)

/-- The result a level gives (R77). -/
inductive Level
  | pass
  | reject
  | band (code : Fin 4)
deriving DecidableEq, Repr

/-- A fill compared with a threshold pair (R77). -/
def levelOf (g : GlobalRecord) (t : Pair) (fill : Nat) : Level :=
  if fill < t.min then .pass
  else if t.max < fill ∨ t.min = t.max then .reject
  else if fill ≤ t.min + (t.max - t.min) / 2 then .band g.lotLower
  else .band g.lotUpper

/-- The code of the draw two levels ask for: the larger of those in their bands (R78). -/
def drawCode : Level → Level → Option (Fin 4)
  | .band a, .band b => some (max a b)
  | .band a, _ => some a
  | _, .band b => some b
  | _, _ => none

/-- The bound a code compares a draw with (R70). -/
def codeBound (c : Fin 4) : Nat := if c = 0 then 32 else if c = 1 then 64 else if c = 2 then 128 else 192

/-- One shift of the lottery register (R79). -/
def lotteryShift (v : BitVec 16) : BitVec 16 :=
  v.extractLsb' 0 15 ++
    BitVec.ofBool ((v.getLsbD 15 ^^ v.getLsbD 13) ^^ (v.getLsbD 12 ^^ v.getLsbD 10))

/-- The value of a draw: the low 8 bits after the shift (R79). -/
def drawValue (v : BitVec 16) : Nat := (v.setWidth 8).toNat

/-- Step 6 and step 7: the class and global levels, and the draw (R77, R78). The second part is the lottery register
after the decision. -/
def thresholdStep (s : State) (k : Fin 8) (c : Colour) : Decision × BitVec 16 :=
  let lc := levelOf s.glob (s.classRec[k].thr.pick c) s.loads.occ[k]
  let lg := levelOf s.glob (s.glob.thr.pick c) s.loads.sharedLoad
  if lc = .reject ∨ lg = .reject then (.refuse .threshold, s.lottery)
  else
    match drawCode lc lg with
    | some code =>
      if drawValue (lotteryShift s.lottery) < codeBound code then (.refuse .lottery, lotteryShift s.lottery)
      else (.accept, lotteryShift s.lottery)
    | none => (.accept, s.lottery)

/-- The ENFORCE decision for a load `n` of class `k` and colour `c` from port `p` (R72 to R78), with the lottery register
after it. -/
def enforceDecision (s : State) (p : Fin 6) (n : Nat) (k : Fin 8) (c : Colour) (critical : Bool) :
    Decision × BitVec 16 :=
  if poolFull s.loads n then (.refuse .pool, s.lottery)
  else if critical then
    if sharedFull s k n then (.refuse .pool, s.lottery) else (.accept, s.lottery)
  else if c = .green ∧ s.loads.occ[k] + n ≤ s.classRec[k].res then (.accept, s.lottery)
  else if s.portRec[p].limit < s.loads.portLoad[p] + n then (.refuse .portLimit, s.lottery)
  else if sharedFull s k n then (.refuse .pool, s.lottery)
  else thresholdStep s k c

/-- The BYPASS decision (R81). -/
def bypassDecision (s : State) (n : Nat) : Decision := if poolFull s.loads n then .refuse .pool else .accept

/-- What a take fixes for the life of a transaction (R34, R36). -/
structure Treatment where
  cls      : Fin 8
  colour   : Colour
  group    : Fin 24
  critical : Bool
  deadline : Fin 256
  hint     : Fin 4
deriving DecidableEq, Repr

/-- The descriptor an admission creates (R34, R65). -/
def newDescriptor (p : Fin 6) (r : Request) (t : Treatment) : Descriptor :=
  { port := p, tag := r.tag, kind := r.kind, address := r.address, lenM1 := r.lenM1, cls := t.cls, colour := t.colour,
    group := t.group, critical := t.critical, deadline := t.deadline, hint := t.hint, state := .queued, dtag := none,
    dataRef := if r.kind = .write then some (p, r.tag) else none, ranOut := false }

/-- An admission (R82): the descriptor at the tail of its class queue, the loads raised, a WRITE's data in the Write Data Store
and the initiator tag LIVE. -/
def admitRequest (s : State) (p : Fin 6) (r : Request) (t : Treatment) : State :=
  { s with
    loads := s.loads.add s.classRec p t.cls r.beats
    writeStore := if r.kind = .write then s.writeStore ++ [⟨p, r.tag, r.data⟩] else s.writeStore
    ports := s.ports.set p { s.ports[p] with tagLive := s.ports[p].tagLive.set r.tag true }
    queues := s.queues.set t.cls (s.queues[t.cls] ++ [newDescriptor p r t]) }

/-- The counts of an admission (R143). -/
def countAdmission (s : State) (g : Fin 24) (r : Request) : State :=
  count (count s g .admitted 1) g .admittedBytes r.size

end Sys2Proof.Machine
end

