-- ==== Sys2Proof/Machine/Take.lean ====
section
/-! DEFINITION. REQUEST_PRESENTED and TAKE. -/

namespace Sys2Proof.Machine

/-! ### REQUEST_PRESENTED -/

/-- The initiator places a request on its port's request channel. An empty slot captures it at that moment (R2). While the
slot is occupied the change does not reach it (R2), and while the part is in reset nothing is captured (R184): the
request then stands on the channel only (log 8). -/
def presentRequest (s : State) (p : Fin 6) (r : Request) : State :=
  { s with
    ports := s.ports.set p { s.ports[p] with
      channel := some r.carried
      slot := if s.phase = .running ∧ s.ports[p].slot = none then some r.carried else s.ports[p].slot } }

/-- REQUEST_PRESENTED (R2). -/
def execRequestPresented (p : Fin 6) (r : Request) (s : State) : Host.Outcome State Fault Refusal :=
  .next (presentRequest s.quiet p r)

/-! ### TAKE -/

/-- The port side of a take: the slot is emptied, acceptance is signalled, the pointer moves (R5, R13). -/
def acceptRequest (s : State) (p : Fin 6) : State :=
  { s with
    lastGranted := p
    ports := s.ports.set p { s.ports[p] with slot := none, channel := none }
    out := { s.out with accepted := some p } }

/-- A boundary denial (R6). -/
def takeBoundary (s : State) (p : Fin 6) (r : Request) : State :=
  respond (count s s.portRec[p].defGroup .denied 1) p (plainResponse r.tag (.denied .boundary))

/-- A refusal answered RETRY and counted in a group (R83). -/
def takeRetry (s : State) (p : Fin 6) (r : Request) (g : Fin 24) (reason : RetryReason) : State :=
  respond (count s g .retried 1) p (plainResponse r.tag (.retry reason))

/-- The settings of a BYPASS take (R36). -/
def bypassTreatment (s : State) (p : Fin 6) : Treatment :=
  { cls := 0, colour := .green, group := s.portRec[p].defGroup, critical := false,
    deadline := s.classRec[(0 : Fin 8)].deadline, hint := s.classRec[(0 : Fin 8)].hintMap.green }

/-- A take in BYPASS mode past the boundary check (R36, R81). -/
def takeBypass (s : State) (p : Fin 6) (r : Request) : State :=
  match bypassDecision s r.beats with
  | .refuse reason => takeRetry s p r s.portRec[p].defGroup reason
  | .accept => countAdmission (admitRequest s p r (bypassTreatment s p)) s.portRec[p].defGroup r

/-- A capture record of this take (R155). -/
def captureOf (s : State) (p : Fin 6) (r : Request) (i : Fin 48) (k : Fin 8) (c : Option Colour) (o : TakeOutcome) :
    CaptureRecord :=
  { bank := s.activeBank, rule := i, port := p, tag := r.tag, kind := r.kind, address := r.address, lenM1 := r.lenM1,
    cls := k, colour := c, outcome := o }

/-- Step 8: if NOTIFY is YES a record is appended, or lost with CAPTURE_LOST where the queue is full (R156, R157). -/
def capture (s : State) (p : Fin 6) (r : Request) (res : Resolution) (c : Option Colour) (o : TakeOutcome) : State :=
  match res.capture with
  | none => s
  | some i =>
    { s with
      captures := if s.captures.length < Config.captureLimit then s.captures ++ [captureOf s p r i res.cls c o]
        else s.captures
      events := { s.events with
        sticky := stickyWith s.events.sticky (decide (Config.captureLimit ≤ s.captures.length)) .captureLost } }

/-- A take whose DISPOSITION is DENY (R32). -/
def takeDenied (s : State) (p : Fin 6) (r : Request) (res : Resolution) : State :=
  capture (respond (count s res.group .denied 1) p (plainResponse r.tag (.denied .rule))) p r res none .deniedRule

/-- The settings of an ENFORCE take (R34). -/
def enforceTreatment (s : State) (res : Resolution) (c : Colour) : Treatment :=
  { cls := res.cls, colour := c, group := res.group, critical := res.disposition == .critical,
    deadline := res.deadline, hint := resolvedHint s res c }

/-- Step 7 of an ENFORCE take: the meter is charged, the admission made and counted, and the latches whose quantities moved are
evaluated (R33, R54, R82, R90). -/
def takeAdmitted (s : State) (p : Fin 6) (r : Request) (res : Resolution) (c : Colour) : State :=
  let s1 := { admitRequest s p r (enforceTreatment s res c) with meters := chargeMeters s.meters res.meter c r.size }
  let s2 := countAdmission s1 res.group r
  evalLatches s2 true (fun q => q == p) fun q => charged res.meter c s.portRec[q].paceMeter

/-- Steps 5 to 8 of an ENFORCE take: colour, admission, capture (R33, R53). -/
def takeMetered (s : State) (p : Fin 6) (r : Request) (res : Resolution) : State :=
  let c := colourAt s p r res.meter
  let s1 := if c = .red then count s res.group .markedRed 1 else s
  let d := enforceDecision s p r.beats res.cls c (res.disposition == .critical)
  let s2 := { s1 with lottery := d.2 }
  match d.1 with
  | .refuse reason => capture (takeRetry s2 p r res.group reason) p r res (some c) (.retry reason)
  | .accept => capture (takeAdmitted s2 p r res c) p r res (some c) .admitted

/-- A take in ENFORCE mode past the boundary check (R33). -/
def takeEnforce (s : State) (p : Fin 6) (r : Request) : State :=
  let res := resolve s p r
  if res.disposition = .deny then takeDenied s p r res else takeMetered s p r res

/-- The take of port `p`'s request (R5, R33). -/
def takeRequest (s : State) (p : Fin 6) (r : Request) : State :=
  let s1 := acceptRequest s p
  noteHold s (if crossesPage r then takeBoundary s1 p r
    else match s.drain.mode with
      | .bypass => takeBypass s1 p r
      | .enforce => takeEnforce s1 p r)

/-- A take: the granted port's request, or nothing where no port is eligible (R12). -/
def takeEvent (s : State) : State :=
  match grant s with
  | none => s
  | some p =>
    match s.ports[p].slot with
    | none => s
    | some r => takeRequest s p r

/-- TAKE (R12). -/
def execTake (s : State) : Host.Outcome State Fault Refusal := whileRunning s takeEvent

end Sys2Proof.Machine
end

