-- ==== Sys2Proof/Machine/Time.lean ====
section
/-! DEFINITION. The Tick Generator: TICK, EXPIRY and the REFCLK period (Chapter 3, section 7.3). -/

namespace Sys2Proof.Machine

/-! ### Refill -/

/-- A meter refilled at a tick (R47). -/
def Meter.refill (m : Meter) : Meter :=
  if m.c + m.cir ≤ m.cbs then { m with c := m.c + m.cir }
  else { m with c := m.cbs, e := min m.ebs (m.e + (m.c + m.cir - m.cbs)) }

/-- The Meter Bank and the Hold Monitor at a tick: every meter is refilled, then every pace latch is evaluated against the
refilled tokens (R43, R47, R90). -/
def refillMeters (s : State) : State :=
  evalLatches { s with meters := .ofFn fun m => s.meters[m].refill } false (fun _ => false) fun _ => true

/-! ### Deadlines -/

/-- A descriptor counted down at a tick (R130): a count of 0 means no deadline, a count of 1 runs out. -/
def Descriptor.countDown (d : Descriptor) : Descriptor :=
  if d.deadline = 0 then d else { d with deadline := d.deadline - 1, ranOut := d.ranOut || d.deadline == 1 }

/-- The tag's descriptor counted down. -/
def TagState.countDown : TagState → TagState
  | .free => .free
  | .busy d => .busy d.countDown
  | .orphan o => .orphan o

/-- Every live descriptor counted down, QUEUED and ISSUED alike (R130). -/
def countDownAll (s : State) : State :=
  { s with
    queues := .ofFn fun k => s.queues[k].map Descriptor.countDown
    tags := .ofFn fun t => s.tags[t].countDown }

/-! ### Expiry -/

/-- The live descriptors whose count has run out. -/
def expiring (s : State) : List Descriptor := (liveDescriptors s).filter Descriptor.ranOut

/-- A class's deficit after expiries from its queue: 0 if they emptied it (R112, R116). -/
def deficitAfterExpiry (s : State) (k : Fin 8) : Nat :=
  if !s.queues[k].isEmpty && s.queues[k].all Descriptor.ranOut then 0 else s.sched.deficit[k]

/-- A tag at an expiry: a BUSY tag whose descriptor expires becomes ORPHAN with cause EXPIRED (R132). -/
def TagState.expire : TagState → TagState
  | .free => .free
  | .busy d => if d.ranOut then .orphan (d.orphaned .expired) else .busy d
  | .orphan o => .orphan o

/-- The queues, deficits and tags at the expiries of one event (R116, R131, R132). -/
def dropExpired (s : State) : State :=
  { s with
    queues := .ofFn fun k => s.queues[k].filter fun d => !d.ranOut
    sched := { s.sched with deficit := .ofFn (deficitAfterExpiry s) }
    tags := .ofFn fun t => s.tags[t].expire }

/-- Every descriptor whose count has run out expires, in one event (R130 to R133): it is answered FAULT/EXPIRED, counted FAULTED
in its own group, and freed; EXPIRED is raised once. -/
def expireAll (s : State) : State :=
  let ds := expiring s
  let s1 := respondAll (dropExpired s) ds (.fault .expired)
  let s2 := (countEach s1 (ds.map Descriptor.group) .faulted).raiseIf (!ds.isEmpty) .expired
  handOn (freeDescriptors s2 ds) ds

/-- The expiries as an event of their own, with HOLD_CHANGE (R91). -/
def expiryEvent (s : State) : State := noteHold s (expireAll s)

/-- EXPIRY (R130). A tick carries out its own expiries (R43, R133), so this row finds a descriptor to expire only where one has
been left with its count run out (log 4). -/
def execExpiry (s : State) : Host.Outcome State Fault Refusal := whileRunning s expiryEvent

/-! ### The tick -/

/-- A tick, one event at three blocks: refill and pace latches, countdown, expiries; the counter starts again (R43). -/
def tickEvent (s : State) : State :=
  noteHold s (expireAll (countDownAll (refillMeters { s with tickCounter := 0 })))

/-- TICK (R43): the REFCLK period that completes the count (log 3). No tick occurs during a reset (R186). -/
def execTick (s : State) : Host.Outcome State Fault Refusal := whileRunning s tickEvent

/-- One REFCLK period: the counter advances, and a tick occurs when it has counted `tick_period` of them (R43; log 2). During a
reset it does not count (R186). -/
def refclkPeriod (s : State) : State :=
  if s.phase = .running then
    if s.glob.tickPeriod ≤ s.tickCounter + 1 then tickEvent s.quiet
    else { s.quiet with tickCounter := s.tickCounter + 1 }
  else s.quiet

end Sys2Proof.Machine
end

