-- ==== Sys2Proof/Machine/Dispatch.lean ====
section
/-! DEFINITION. The meaning of every command: one arm per row of the opcode table. -/

namespace Sys2Proof.Machine

def exec (i : Instr) (s : State) : Host.Outcome State Fault Refusal :=
  match i with
  | .requestPresented port request => Sys2Proof.Machine.execRequestPresented port request s
  | .take => Sys2Proof.Machine.execTake s
  | .issue memReady => Sys2Proof.Machine.execIssue memReady s
  | .completion tag status data => Sys2Proof.Machine.execCompletion tag status data s
  | .tick => Sys2Proof.Machine.execTick s
  | .expiry => Sys2Proof.Machine.execExpiry s
  | .quiesceChange edge => Sys2Proof.Machine.execQuiesceChange edge s
  | .powerOnReset => Sys2Proof.Machine.execPowerOnReset s
  | .lineReset => Sys2Proof.Machine.execLineReset s
  | .readEntry moment table frame => Sys2Proof.Machine.execReadEntry moment table frame s
  | .writeEntry table frame => Sys2Proof.Machine.execWriteEntry table frame s
  | .writeGlobal frame => Sys2Proof.Machine.execWriteGlobal frame s
  | .writePort frame => Sys2Proof.Machine.execWritePort frame s
  | .writeClass frame => Sys2Proof.Machine.execWriteClass frame s
  | .writeMeter frame => Sys2Proof.Machine.execWriteMeter frame s
  | .meterLoad frame => Sys2Proof.Machine.execMeterLoad frame s
  | .writeRulePattern frame => Sys2Proof.Machine.execWriteRulePattern frame s
  | .writeRuleAction frame => Sys2Proof.Machine.execWriteRuleAction frame s
  | .writeEventMask frame => Sys2Proof.Machine.execWriteEventMask frame s
  | .popCapture moment frame => Sys2Proof.Machine.execPopCapture moment frame s
  | .swapBanks frame => Sys2Proof.Machine.execSwapBanks frame s
  | .clearGroup frame => Sys2Proof.Machine.execClearGroup frame s
  | .clearAllCounters frame => Sys2Proof.Machine.execClearAllCounters frame s
  | .clearEvents frame => Sys2Proof.Machine.execClearEvents frame s
  | .clearCause frame => Sys2Proof.Machine.execClearCause frame s
  | .drain frame => Sys2Proof.Machine.execDrain frame s
  | .release frame => Sys2Proof.Machine.execRelease frame s
  | .setMode frame => Sys2Proof.Machine.execSetMode frame s
  | .setSeed frame => Sys2Proof.Machine.execSetSeed frame s
  | .reclaimTags frame => Sys2Proof.Machine.execReclaimTags frame s
  | .governorReset startHeld frame => Sys2Proof.Machine.execGovernorReset startHeld frame s
  | .badFrame frame => Sys2Proof.Machine.execBadFrame frame s
  | .endOfReset ending => Sys2Proof.Machine.execEndOfReset ending s
  | .csNHighAfterReset => Sys2Proof.Machine.execCsNHighAfterReset s

end Sys2Proof.Machine
end

