-- ==== Sys2Proof/Machine/Step.lean ====
section
/-! DEFINITION. The step: the command at the front of the queue, or one REFCLK period where the queue is empty. -/

namespace Sys2Proof.Machine

/-- One step. On an empty queue one REFCLK period passes (R43; log 2). -/
def step (s : State) : Host.Outcome State Fault Refusal :=
  match s.pending with
  | [] => .next (refclkPeriod s)
  | c :: rest => exec c { s with pending := rest }

/-- A command put at the front of the queue. -/
def State.withFront (s : State) (c : Instr) : State := { s with pending := c :: s.pending }

/-- The command a word of the opcode table spells put at the front of the queue; no row gives bits, so none does. -/
def State.withFetchWord (s : State) (nbits w : Nat) : State :=
  match decodeTableWord nbits w with
  | some c => s.withFront c
  | none => s

end Sys2Proof.Machine
end

