-- ==== Sys2Proof/Safety.lean ====
section
/-! DEFINITION. What the spec promises of every moment between two events, and what statements speak of: the invariants, what a
next state is compared with, the weighted round as visits, and the entries byte by byte. -/

namespace Sys2Proof.Machine

/-! ### The Transaction Table -/

/-- The load quantities agree with the live descriptors, and the derived ones with the occupancies and reservations (R61,
R62). -/
def LoadsAgree (s : State) : Prop :=
  s.loads.liveCount = (liveDescriptors s).length ∧
  s.loads.totalLoad = beatsWhere (liveDescriptors s) (fun _ => true) ∧
  (∀ k : Fin 8, s.loads.occ[k] = beatsWhere (liveDescriptors s) fun d => d.cls == k) ∧
  (∀ p : Fin 6, s.loads.portLoad[p] = beatsWhere (liveDescriptors s) fun d => d.port == p) ∧
  s.loads.sharedLoad = sharedLoadOf s.loads.occ s.classRec ∧
  s.loads.sharedCapacity = sharedCapacityOf s.classRec

/-- The table never holds more than 64 live descriptors, nor the pool more than 1024 beats (R61). -/
def LoadsBounded (s : State) : Prop :=
  s.loads.liveCount ≤ Config.descriptorLimit ∧ s.loads.totalLoad ≤ Config.poolBeats

/-- A port's tag is LIVE exactly while one live transaction of the port has it, and no two have (R4, R65). -/
def TagSetsAgree (s : State) : Prop :=
  ∀ (p : Fin 6) (t : Fin 8),
    ((liveDescriptors s).filter fun d => d.port == p && d.tag == t).length =
      if s.ports[p].tagLive[t] then 1 else 0

/-- A descriptor in a class queue is of that class, QUEUED and without a downstream tag; the descriptor a BUSY tag is bound to
is ISSUED and names the tag (R104, R122). -/
def PlacesAgree (s : State) : Prop :=
  (∀ k : Fin 8, ∀ d ∈ s.queues[k], d.cls = k ∧ d.state = .queued ∧ d.dtag = none) ∧
  (∀ t : Fin 32, ∀ d ∈ s.tags[t].bound, d.state = .issued ∧ d.dtag = some t)

/-- The Write Data Store holds one space for each live WRITE, of as many beats as its load, and no other (R64); a live WRITE refers
to its own space, and a READ to none (R65). -/
def StoreAgrees (s : State) : Prop :=
  (∀ d ∈ liveDescriptors s, d.dataRef = if d.kind = .write then some (d.port, d.tag) else none) ∧
  (∀ d ∈ liveDescriptors s,
    ((s.writeStore.filter fun w => w.port == d.port && w.tag == d.tag).map fun w => w.data.length) =
      if d.kind = .write then [d.beats] else []) ∧
  (∀ w ∈ s.writeStore, names (liveDescriptors s) w.port w.tag = true)

/-- Between events no live descriptor's count has run out: descriptors expire at the tick (R130, R133). -/
def NoneRanOut (s : State) : Prop := ∀ d ∈ liveDescriptors s, d.ranOut = false

/-! ### Settings, meters, lottery -/

/-- A meter's tokens stay within its buckets (R46). -/
def Meter.within (m : Meter) : Prop :=
  m.cir ≤ 65535 ∧ m.cbs ≤ Config.bucketMax ∧ m.ebs ≤ Config.bucketMax ∧ m.c ≤ m.cbs ∧ m.e ≤ m.ebs

/-- Every meter's tokens stay within its buckets (R46). -/
def MetersWithin (s : State) : Prop := ∀ m : Fin 16, s.meters[m].within

/-- The threshold pairs of a record are legal (R68). -/
def PairsLegal (t : PerColour Pair) : Prop := ∀ c : Colour, (t.pick c).min ≤ (t.pick c).max ∧ (t.pick c).max ≤ 1024

/-- The GLOBAL record lies in its ranges (R44, R68, R86, R87). -/
def GlobalLegal (g : GlobalRecord) : Prop :=
  16 ≤ g.tickPeriod ∧ g.tickPeriod ≤ 65535 ∧ g.holdOff < g.holdOn ∧ g.holdOn ≤ 1024 ∧ PairsLegal g.thr

/-- A PORT record lies in its ranges (R69, R86, R87). -/
def PortLegal (r : PortRecord) : Prop :=
  1 ≤ r.limit ∧ r.limit ≤ 1024 ∧ r.holdOff < r.holdOn ∧ r.holdOn ≤ 1024 ∧ r.paceOn < r.paceOff ∧
  r.paceOff ≤ Config.bucketMax

/-- A CLASS record lies in its ranges (R67, R68, R106). -/
def ClassLegal (r : ClassRecord) : Prop :=
  1 ≤ r.weight ∧ r.weight ≤ 64 ∧ r.res ≤ 512 ∧ PairsLegal r.thr

/-- Every record lies in its ranges, and the reservations add up to at most 512 beats (R67). -/
def SettingsLegal (s : State) : Prop :=
  GlobalLegal s.glob ∧ (∀ p : Fin 6, PortLegal s.portRec[p]) ∧ (∀ k : Fin 8, ClassLegal s.classRec[k]) ∧
  reservationSum s.classRec ≤ Config.reservationCap

/-- The lottery register is never 0 (R79). -/
def LotteryNonzero (s : State) : Prop := s.lottery ≠ 0#16

/-- No deficit exceeds 79 beats, and a class with an empty queue, or not WEIGHTED, has none (R111, R112). -/
def DeficitsLegal (s : State) : Prop :=
  ∀ k : Fin 8, s.sched.deficit[k] ≤ 79 ∧
    (s.queues[k] = [] → s.sched.deficit[k] = 0) ∧ (s.classRec[k].mode ≠ .weighted → s.sched.deficit[k] = 0)

/-! ### Holding, draining, capturing, time -/

/-- In BYPASS mode every latch is OFF (R92). -/
def BypassLatchesOff (s : State) : Prop := s.drain.mode = .bypass → s.hold = HoldLatches.reset

/-- In ENFORCE mode every latch is in the state an evaluation would leave it in: each event that moves a watched quantity or a
setting evaluates the latches concerned (R88, R90). -/
def LatchesSettled (s : State) : Prop :=
  s.drain.mode = .enforce →
    evalGlobal s = s.hold.glob ∧ ∀ p : Fin 6, evalPort s p = s.hold.port[p] ∧ evalPace s p = s.hold.pace[p]

/-- The operating state agrees with the drain request set and the count of live transactions (R94, R95, R100). -/
def OpStateAgrees (s : State) : Prop :=
  (s.drain.opState = .running ↔ s.drain.requested = false) ∧
  (s.drain.opState = .draining → s.loads.liveCount ≠ 0) ∧ (s.drain.opState = .drained → s.loads.liveCount = 0)

/-- The Capture Queue never holds more than 16 records (R156). -/
def CapturesBounded (s : State) : Prop := s.captures.length ≤ Config.captureLimit

/-- The tick counter has not counted a whole period: the tick restarts it (R43). -/
def TickCounterBelow (s : State) : Prop := s.tickCounter < s.glob.tickPeriod

/-- While the part is held in reset nothing is live, nothing is in a slot and every block holds its reset values (R184 to
R187). -/
def ResetHeld (s : State) : Prop :=
  s.phase ≠ .running →
    s = { State.reset with phase := s.phase, pins := s.pins, cause := s.cause, out := s.out, pending := s.pending,
                           ports := .ofFn fun p => { PortState.reset with channel := s.ports[p].channel } }

/-- A slot holds only a request its channel can carry (R1, R2). -/
def SlotsCarried (s : State) : Prop :=
  ∀ p : Fin 6, ∀ r : Request, (s.ports[p].slot = some r ∨ s.ports[p].channel = some r) → r.dataFits = true

/-! ### What statements compare a next state with -/

/-- The state after a frame that began in `s` and ended with result `r`, apart from what its command did: SDO has carried the
result before and the read data (R167), the result register holds `r` (R168), and no frame is open. -/
def afterFrame (s : State) (f : FrameBits) (code : Nat) (data : List Byte) (r : ResultCode) : State :=
  { s with
    out := { Outputs.quiet with sdo := some (shiftedOut s f code data) }
    mgmt := { s.mgmt with result := r, openFrame := none } }

/-- The frame has ended and has the length of `n` bytes, `code` of them code bytes (R166, R170). -/
abbrev endsAt (f : FrameBits) (code n : Nat) : Prop := f.ended = true ∧ f.edges code = 8 * n

/-- The output channels at a take that is answered at once on port `p` (R5, R8). -/
def answeredAtTake (s : State) (p : Fin 6) (r : Request) (c : RespCode) : Outputs :=
  { s.quietOut with
    accepted := some p
    responses := Outputs.quiet.responses.set p [⟨r.tag, c, none⟩] }

/-- The ports after a take of port `p`'s request that leaves its tag FREE (R5). -/
def portsAfterTake (s : State) (p : Fin 6) : Vector PortState 6 :=
  s.ports.set p { s.ports[p] with slot := none, channel := none }

/-- The ports after a take of port `p`'s request that is admitted under tag `t` (R4, R5). -/
def portsAfterAdmission (s : State) (p : Fin 6) (t : Fin 8) : Vector PortState 6 :=
  s.ports.set p { slot := none, channel := none, tagLive := s.ports[p].tagLive.set t true }

/-- The Write Data Store after an admission: a WRITE's data has its space (R64, R82). -/
def storeAfterAdmission (s : State) (p : Fin 6) (r : Request) : List WriteSpace :=
  if r.kind = .write then s.writeStore ++ [⟨p, r.tag, r.data⟩] else s.writeStore

/-- The ports after the descriptors `ds` have been freed: their initiator tags are FREE (R4, R63). -/
def portsAfterFreeing (s : State) (ds : List Descriptor) : Vector PortState 6 :=
  .ofFn fun p => { s.ports[p] with tagLive := .ofFn fun t => s.ports[p].tagLive[t] && !names ds p t }

/-- The Write Data Store after the descriptors `ds` have been freed (R63, R64). -/
def storeAfterFreeing (s : State) (ds : List Descriptor) : List WriteSpace :=
  s.writeStore.filter fun w => !names ds w.port w.tag

/-- The latches after the descriptors `ds` have been freed from `s` (R63, R90). -/
def holdAfterFreeing (s : State) (ds : List Descriptor) : HoldLatches :=
  latchesAfter { s with loads := s.loads.free s.classRec ds } (!ds.isEmpty)
    (fun p => ds.any fun d => d.port == p) fun _ => false

/-- The operating state after a freeing that leaves `live` transactions (R95). -/
def opStateAfterFreeing (o : OpState) (live : Nat) : OpState := if o = .draining ∧ live = 0 then .drained else o

/-- HELD changes for some port when the latches become `h` (R91). -/
def heldMoves (s : State) (h : HoldLatches) : Bool := heldPorts s != heldPorts { s with hold := h }

/-- MARKED_RED at the colour step of a take (R53). -/
def countRed (s : State) (g : Fin 24) (c : Colour) : State := if c = .red then count s g .markedRed 1 else s

/-- The length in bytes that R171 and R172 give a frame by its code bytes, if they name a row. -/
def rightLength (f : FrameBits) : Option Nat :=
  match f.bytes with
  | [] => none
  | c :: rest =>
    match Command.ofCode c with
    | none => none
    | some .readEntry | some .writeEntry => (rest.head?.bind Table.ofCode).map Table.frameLength
    | some k => some k.frameLength

/-- The read data of a frame from its beginning (R167): the entry a READ_ENTRY names, the record at the head for POP_CAPTURE, none for any
other. -/
def readDataOf (s : State) : Instr → List Byte
  | .readEntry .opening t f => (entryBytes s t (f.bytes.headD 0#8)).getD []
  | .popCapture .opening _ => (s.captures.head?.map captureBytes).getD []
  | _ => []

/-- The commands that set HOLD_CHANGE or DRAIN_DONE by other means than the event itself: the three resets clear every sticky
event, and CLEAR_EVENTS those it names (R163, R165). -/
def clearsEvents : Instr → Bool
  | .powerOnReset => true
  | .lineReset => true
  | .governorReset _ _ => true
  | .clearEvents _ => true
  | _ => false

/-- Steps round from the port after the pointer to port `q` (R13). -/
def grantDistance (ptr q : Fin 6) : Nat := (q.val + 5 - ptr.val) % 6

/-! ### The weighted round -/

/-- Class `k` is the first WEIGHTED class with work at the pointer or after it, taken cyclically (R110, step 1). -/
def FirstInRound (s : State) (ptr k : Fin 8) : Prop :=
  (s.classRec[k].mode = .weighted ∧ s.queues[k] ≠ []) ∧
  ∀ j : Fin 8, s.classRec[j].mode = .weighted → s.queues[j] ≠ [] →
    (k.val + 8 - ptr.val) % 8 ≤ (j.val + 8 - ptr.val) % 8

/-- The visits of R110 from a pointer and deficits end in the round `r`, however many they are: a visited class whose deficit
covers its head is chosen, and any other gains its weight and is passed (steps 2 and 3). -/
inductive RoundFrom (s : State) : Fin 8 → Vector Nat 8 → Round → Prop
  | chosen (ptr k : Fin 8) (deficit : Vector Nat 8) (d : Descriptor) (rest : List Descriptor) :
      FirstInRound s ptr k → s.queues[k] = d :: rest → d.beats ≤ deficit[k] → RoundFrom s ptr deficit ⟨k, deficit⟩
  | passed (ptr k : Fin 8) (deficit : Vector Nat 8) (d : Descriptor) (rest : List Descriptor) (r : Round) :
      FirstInRound s ptr k → s.queues[k] = d :: rest → deficit[k] < d.beats →
      RoundFrom s (k + 1) (deficit.set k (deficit[k] + s.classRec[k].weight)) r → RoundFrom s ptr deficit r

/-! ### What the entries hold, byte by byte -/

/-- The `n` bytes from offset `i` on hold the number `v`, least significant byte first (R173). -/
def FieldAt (e : List Byte) (i n v : Nat) : Prop := ∀ j < n, e.getD (i + j) 0#8 = BitVec.ofNat 8 (v / 256 ^ j)

/-- Three threshold pairs from offset `i` on, minimum before maximum, green before yellow before red (R175, R177). -/
def PairsAt (e : List Byte) (i : Nat) (t : PerColour Pair) : Prop :=
  FieldAt e i 2 t.green.min ∧ FieldAt e (i + 2) 2 t.green.max ∧ FieldAt e (i + 4) 2 t.yellow.min ∧
  FieldAt e (i + 6) 2 t.yellow.max ∧ FieldAt e (i + 8) 2 t.red.min ∧ FieldAt e (i + 10) 2 t.red.max

/-- The GLOBAL entry (R175). -/
def GlobalLayout (s : State) (e : List Byte) : Prop :=
  e.length = 54 ∧ FieldAt e 0 2 s.glob.tickPeriod ∧ FieldAt e 2 2 s.glob.holdOn ∧ FieldAt e 4 2 s.glob.holdOff ∧
  PairsAt e 6 s.glob.thr ∧ FieldAt e 18 1 s.glob.lotLower.val ∧ FieldAt e 19 1 s.glob.lotUpper.val ∧
  e.getD 20 0#8 = quiesceByte s.glob.quiesceMode ∧ FieldAt e 21 1 s.glob.statsEnable.toNat ∧
  (∀ g : Fin 24, FieldAt e (22 + g.val) 1 s.glob.enables[g].toNat) ∧ FieldAt e 46 2 s.loads.sharedLoad ∧
  FieldAt e 48 2 s.loads.sharedCapacity ∧ FieldAt e 50 2 s.lottery.toNat ∧ FieldAt e 52 1 s.sched.roundPtr.val ∧
  FieldAt e 53 1 s.hold.glob.toNat

/-- The PORT entry (R176). -/
def PortLayout (s : State) (p : Fin 6) (e : List Byte) : Prop :=
  let r := s.portRec[p]
  e.length = 29 ∧ FieldAt e 0 1 r.defClass.val ∧ e.getD 1 0#8 = meterByte r.defMeter ∧ FieldAt e 2 1 r.defGroup.val ∧
  FieldAt e 3 1 r.colourAware.toNat ∧ (∀ h : Fin 4, e.getD (4 + h.val) 0#8 = colourByte r.colourMap[h]) ∧
  FieldAt e 8 2 r.limit ∧ FieldAt e 10 1 r.globalPart.toNat ∧ FieldAt e 11 1 r.holdEn.toNat ∧ FieldAt e 12 2 r.holdOn ∧
  FieldAt e 14 2 r.holdOff ∧ FieldAt e 16 1 r.paceEn.toNat ∧ FieldAt e 17 1 r.paceMeter.val ∧ FieldAt e 18 3 r.paceOn ∧
  FieldAt e 21 3 r.paceOff ∧ FieldAt e 24 2 s.loads.portLoad[p] ∧ FieldAt e 26 1 s.hold.port[p].toNat ∧
  FieldAt e 27 1 s.hold.pace[p].toNat ∧ FieldAt e 28 1 (held s p).toNat

/-- The CLASS entry (R177). -/
def ClassLayout (s : State) (k : Fin 8) (e : List Byte) : Prop :=
  let r := s.classRec[k]
  e.length = 24 ∧ e.getD 0 0#8 = schedByte r.mode ∧ FieldAt e 1 1 r.weight ∧ FieldAt e 2 2 r.res ∧ PairsAt e 4 r.thr ∧
  FieldAt e 16 1 r.deadline.val ∧ FieldAt e 17 1 r.hintMap.green.val ∧ FieldAt e 18 1 r.hintMap.yellow.val ∧
  FieldAt e 19 1 r.hintMap.red.val ∧ FieldAt e 20 1 s.sched.deficit[k] ∧ FieldAt e 21 1 s.queues[k].length ∧
  FieldAt e 22 2 s.loads.occ[k]

/-- The METER entry as read (R58, R177). -/
def MeterLayout (m : Meter) (e : List Byte) : Prop :=
  e.length = 15 ∧ FieldAt e 0 2 m.cir ∧ FieldAt e 2 3 m.cbs ∧ FieldAt e 5 3 m.ebs ∧ FieldAt e 8 1 0 ∧ FieldAt e 9 3 m.c ∧
  FieldAt e 12 3 m.e

/-- The RULE_PATTERN entry (R179). -/
def PatternLayout (t : Pattern) (e : List Byte) : Prop :=
  e.length = 16 ∧
  FieldAt e 0 1 (t.valid.toNat + 2 * t.hasPorts.toNat + 4 * t.hasKind.toNat + 8 * t.hasAddr.toNat + 16 * t.hasBeats.toNat +
    32 * t.hasTags.toNat + 64 * t.hasHints.toNat + 128 * t.hasPriv.toNat) ∧
  FieldAt e 1 1 (t.ports.toNat + 64 * (if t.kind = .write then 1 else 0) + 128 * t.priv.toNat) ∧
  FieldAt e 2 1 t.tags.toNat ∧ FieldAt e 4 1 t.beatsMin ∧ FieldAt e 5 1 t.beatsMax ∧
  match t.addr with
  | .masked a mask => FieldAt e 3 1 t.hints.toNat ∧ FieldAt e 6 5 a.toNat ∧ FieldAt e 11 5 mask.toNat
  | .range a b => FieldAt e 3 1 (t.hints.toNat + 16) ∧ FieldAt e 6 5 a.toNat ∧ FieldAt e 11 5 b.toNat

/-- The RULE_ACTION entry (R180). -/
def ActionLayout (a : Action) (e : List Byte) : Prop :=
  e.length = 12 ∧
  FieldAt e 0 1 (claimCode a.cls.claim + 4 * claimCode a.meter.claim + 16 * claimCode a.group.claim +
    64 * claimCode a.disposition.claim) ∧
  FieldAt e 1 1 (claimCode a.notify.claim + 4 * claimCode a.deadline.claim + 16 * claimCode a.hint.claim) ∧
  FieldAt e 2 1 a.cls.value.val ∧ e.getD 3 0#8 = meterByte a.meter.value ∧ FieldAt e 4 1 a.group.value.val ∧
  e.getD 5 0#8 = dispositionByte a.disposition.value ∧ FieldAt e 6 1 a.notify.value.toNat ∧
  FieldAt e 7 1 a.deadline.value.val ∧ FieldAt e 8 1 a.hint.value.val ∧ FieldAt e 9 3 0

/-- The COUNTERS entry (R151, R178). -/
def CountersLayout (s : State) (g : Fin 24) (e : List Byte) : Prop :=
  e.length = 24 ∧ FieldAt e 0 4 (counterValue s g .admitted).toNat ∧
  FieldAt e 4 4 (counterValue s g .admittedBytes).toNat ∧ FieldAt e 8 4 (counterValue s g .retried).toNat ∧
  FieldAt e 12 4 (counterValue s g .denied).toNat ∧ FieldAt e 16 4 (counterValue s g .faulted).toNat ∧
  FieldAt e 20 4 (counterValue s g .markedRed).toNat

/-- The TRACKER entry (R123, R178). -/
def TrackerLayout (t : TagState) (e : List Byte) : Prop :=
  e.length = 17 ∧
  match t with
  | .free => FieldAt e 0 17 0
  | .busy d =>
    FieldAt e 0 1 1 ∧ FieldAt e 1 1 0 ∧ FieldAt e 2 1 d.port.val ∧ FieldAt e 3 1 d.tag.val ∧ e.getD 4 0#8 = kindByte d.kind ∧
    FieldAt e 5 5 d.address.toNat ∧ FieldAt e 10 1 d.beats ∧ FieldAt e 11 1 d.cls.val ∧
    e.getD 12 0#8 = colourByte d.colour ∧ FieldAt e 13 1 d.group.val ∧ FieldAt e 14 1 d.critical.toNat ∧
    FieldAt e 15 1 d.deadline.val ∧ FieldAt e 16 1 d.hint.val
  | .orphan o =>
    FieldAt e 0 1 2 ∧ e.getD 1 0#8 = causeByte o.cause ∧ FieldAt e 2 1 o.port.val ∧ FieldAt e 3 1 o.tag.val ∧
    e.getD 4 0#8 = kindByte o.kind ∧ FieldAt e 5 5 o.address.toNat ∧ FieldAt e 10 1 (o.lenM1.val + 1) ∧ FieldAt e 11 6 0

/-- The STATUS entry (R178). -/
def StatusLayout (s : State) (e : List Byte) : Prop :=
  e.length = 13 ∧ e.getD 0 0#8 = s.events.sticky ∧ FieldAt e 1 1 ((captureReady s).toNat + 2 * (tagsStuck s).toNat) ∧
  (∀ g : Fin 24, (e.getD (2 + g.val / 8) 0#8).getLsbD (g.val % 8) = s.counters.half[g]) ∧
  e.getD 5 0#8 = opStateByte s.drain.opState ∧ e.getD 6 0#8 = modeByte s.drain.mode ∧ FieldAt e 7 1 s.activeBank.val ∧
  FieldAt e 8 1 (s.drain.command.toNat + 2 * s.drain.line.toNat) ∧
  FieldAt e 9 1 (s.cause.powerOn.toNat + 2 * s.cause.line.toNat + 4 * s.cause.governor.toNat) ∧
  FieldAt e 10 1 s.loads.liveCount ∧ FieldAt e 11 2 s.loads.totalLoad

/-- A capture record as shifted out (R181). -/
def CaptureLayout (c : CaptureRecord) (e : List Byte) : Prop :=
  e.length = 12 ∧ FieldAt e 0 1 (c.rule.val + 64 * c.bank.val) ∧ FieldAt e 1 1 (c.port.val + 16 * c.tag.val) ∧
  e.getD 2 0#8 = kindByte c.kind ∧ FieldAt e 3 1 (c.lenM1.val + 1) ∧ FieldAt e 4 5 c.address.toNat ∧
  FieldAt e 9 1 c.cls.val ∧
  (e.getD 10 0#8 = match c.colour with
    | none => 0x00#8
    | some colour => colourByte colour) ∧
  e.getD 11 0#8 = outcomeByte c.outcome

/-- The codes of R173, R180 and R181, the order of the counters (R151) and of the sticky events (R171). -/
def CodesAsGiven : Prop :=
  (kindByte .read = 0x00#8 ∧ kindByte .write = 0x01#8) ∧
  (colourByte .green = 0x01#8 ∧ colourByte .yellow = 0x02#8 ∧ colourByte .red = 0x03#8) ∧
  (meterByte none = 0xFF#8 ∧ ∀ m : Fin 16, meterByte (some m) = BitVec.ofNat 8 m.val) ∧
  (schedByte .strictHigh = 0x00#8 ∧ schedByte .weighted = 0x01#8 ∧ schedByte .strictLow = 0x02#8) ∧
  (quiesceByte .off = 0x00#8 ∧ quiesceByte .levelLow = 0x01#8 ∧ quiesceByte .falling = 0x02#8 ∧
    quiesceByte .rising = 0x03#8) ∧
  (modeByte .bypass = 0x00#8 ∧ modeByte .enforce = 0x01#8) ∧
  (opStateByte .running = 0x00#8 ∧ opStateByte .draining = 0x01#8 ∧ opStateByte .drained = 0x02#8) ∧
  (causeByte .expired = 0x01#8 ∧ causeByte .reset = 0x02#8) ∧
  (dispositionByte .pass = 0x00#8 ∧ dispositionByte .deny = 0x01#8 ∧ dispositionByte .critical = 0x02#8) ∧
  (claimCode .absent = 0 ∧ claimCode .set = 1 ∧ claimCode .default = 2) ∧
  (outcomeByte .admitted = 0x00#8 ∧ outcomeByte (.retry .pool) = 0x01#8 ∧ outcomeByte (.retry .portLimit) = 0x02#8 ∧
    outcomeByte (.retry .threshold) = 0x03#8 ∧ outcomeByte (.retry .lottery) = 0x04#8 ∧ outcomeByte .deniedRule = 0x05#8) ∧
  (Counter.admitted.idx = 0 ∧ Counter.admittedBytes.idx = 1 ∧ Counter.retried.idx = 2 ∧ Counter.denied.idx = 3 ∧
    Counter.faulted.idx = 4 ∧ Counter.markedRed.idx = 5) ∧
  (Sticky.captureLost.bit = 0x01#8 ∧ Sticky.counterHalf.bit = 0x02#8 ∧ Sticky.expired.bit = 0x04#8 ∧
    Sticky.memoryError.bit = 0x08#8 ∧ Sticky.strayCompletion.bit = 0x10#8 ∧ Sticky.holdChange.bit = 0x20#8 ∧
    Sticky.drainDone.bit = 0x40#8 ∧ Sticky.frameError.bit = 0x80#8)

/-- The index byte lies in the table's range (R172). -/
def indexInRange (t : Table) (b : Byte) : Prop :=
  match t with
  | .global => b = 0#8
  | .port => b.toNat < 6
  | .cls => b.toNat < 8
  | .meter => b.toNat < 16
  | .rulePattern => b.toNat % 128 < 48
  | .ruleAction => b.toNat % 128 < 48
  | .counters => b.toNat < 24
  | .tracker => b.toNat < 32
  | .status => b = 0#8
  | .eventMask => b = 0#8

end Sys2Proof.Machine
end

