-- ==== Sys2Proof/Certificates/Slice0/Obligations.lean ====
section
/-! DEFINITION. The statements for the provers. `exec` and `step` are the machine; what a next state is compared with stands in
Safety.lean. A statement about a command gives the whole next state, so what the command leaves alone is in it. -/

open Sys2Proof Sys2Proof.Machine

/-! ### The queue and reset -/

/-- A step runs the command at the front of the queue, on the state with the queue's rest. -/
def Obligations.StepRunsFrontCommand : Prop :=
  ∀ (c : Instr) (rest : List Instr) (s : State), s.pending = c :: rest → step s = exec c { s with pending := rest }

/-- A step on an empty queue is one REFCLK period (the model's choice, log 2): the tick counter advances, and the period that
completes the count is the tick (R43). During a reset it does not count (R186). -/
def Obligations.EmptyQueueCountsOnePeriod : Prop :=
  ∀ s : State, s.pending = [] →
    (s.phase = .running → s.tickCounter + 1 < s.glob.tickPeriod →
      step s = .next { s with out := s.quietOut, tickCounter := s.tickCounter + 1 }) ∧
    (s.phase = .running → s.glob.tickPeriod ≤ s.tickCounter + 1 → step s = exec .tick s) ∧
    (s.phase ≠ .running → step s = .next { s with out := s.quietOut })

/-- Every command is answered with a next state: the part never stops. -/
def Obligations.EveryCommandAnswersNext : Prop :=
  ∀ (c : Instr) (s : State), ∃ t, exec c s = .next t

/-- What reset leaves, block by block. That State.reset is the moment a power-on reset has ended, and the levels of its lines
(RESET_N, QUIESCE and CS_N high, START_HELD and READY low, nothing presented), are the model's choice (log 1). -/
def Obligations.ResetStateValues : Prop :=
  let s := State.reset
  let open' : Pair := ⟨1024, 1024⟩
  (s.phase = .running ∧ s.pins = ⟨true, false, true, false⟩ ∧ s.mgmt.awaitCsHigh = false) ∧
  (∀ p : Fin 6, s.ports[p].slot = none ∧ s.ports[p].channel = none ∧ ∀ t : Fin 8, s.ports[p].tagLive[t] = false) ∧
  s.lastGranted = 5 ∧ s.activeBank = 0 ∧
  (∀ (b : Fin 2) (i : Fin 48), s.rules[b][i].pattern = Pattern.reset ∧ s.rules[b][i].action = Action.reset) ∧
  s.glob.tickPeriod = 1000 ∧ s.tickCounter = 0 ∧ (∀ m : Fin 16, s.meters[m] = ⟨0, 0, 0, 0, 0⟩) ∧
  (s.glob.holdOn = 1024 ∧ s.glob.holdOff = 1023 ∧ s.glob.thr = ⟨open', open', open'⟩ ∧ s.glob.lotLower = 1 ∧
    s.glob.lotUpper = 3) ∧
  (s.loads.liveCount = 0 ∧ s.loads.totalLoad = 0 ∧ s.loads.sharedLoad = 0 ∧ s.loads.sharedCapacity = 1024 ∧
    (∀ k : Fin 8, s.loads.occ[k] = 0) ∧ ∀ p : Fin 6, s.loads.portLoad[p] = 0) ∧
  s.writeStore = [] ∧ s.lottery = 0x6D2B#16 ∧
  (∀ p : Fin 6, s.portRec[p].defClass = 0 ∧ s.portRec[p].defMeter = none ∧ s.portRec[p].defGroup.val = p.val ∧
    s.portRec[p].colourAware = false ∧ (∀ h : Fin 4, s.portRec[p].colourMap[h] = .green) ∧ s.portRec[p].limit = 1024) ∧
  (∀ p : Fin 6, s.portRec[p].globalPart = false ∧ s.portRec[p].holdEn = false ∧ s.portRec[p].holdOn = 1024 ∧
    s.portRec[p].holdOff = 1023 ∧ s.portRec[p].paceEn = false ∧ s.portRec[p].paceMeter = 0 ∧ s.portRec[p].paceOn = 0 ∧
    s.portRec[p].paceOff = 1) ∧
  (s.hold.glob = false ∧ ∀ p : Fin 6, s.hold.port[p] = false ∧ s.hold.pace[p] = false ∧ held s p = false) ∧
  (∀ k : Fin 8, s.classRec[k] =
    { mode := .weighted, weight := 1, res := 0, thr := ⟨open', open', open'⟩, deadline := 0, hintMap := ⟨0, 0, 0⟩ }) ∧
  (∀ k : Fin 8, s.sched.deficit[k] = 0 ∧ s.queues[k] = []) ∧ s.sched.roundPtr = 0 ∧ (∀ t : Fin 32, s.tags[t] = .free) ∧
  (s.drain.mode = .bypass ∧ s.drain.opState = .running ∧ s.drain.requested = false ∧ s.glob.quiesceMode = .off) ∧
  (s.glob.statsEnable = true ∧ ∀ (g : Fin 24) (c : Counter),
    s.glob.enables[g] = 0x3F#6 ∧ counterValue s g c = 0#32 ∧ s.counters.half[g] = false ∧ countEnabled s g c = true) ∧
  s.captures = [] ∧ (s.events.sticky = 0#8 ∧ s.events.mask = 0x3FF#10 ∧ alertLine s = false) ∧
  s.cause = ⟨true, false, false⟩ ∧ s.mgmt.result = .done ∧ s.mgmt.openFrame = none ∧ sdoDriven s = false ∧ drainedLine s = false

/-! ### Ports and the take -/

/-- A presentation into an empty slot is captured at that moment; into an occupied slot, or while the part is in reset, it stands
on the channel only (the channel is the model's, log 8). Nothing else changes. -/
def Obligations.PresentationCaptured : Prop :=
  ∀ (p : Fin 6) (r : Request) (s : State), r.dataFits = true →
    (s.phase = .running → s.ports[p].slot = none →
      exec (.requestPresented p r) s =
        .next { s with
          out := s.quietOut
          ports := s.ports.set p { s.ports[p] with channel := some r, slot := some r } }) ∧
    (s.phase ≠ .running ∨ s.ports[p].slot ≠ none →
      exec (.requestPresented p r) s =
        .next { s with out := s.quietOut, ports := s.ports.set p { s.ports[p] with channel := some r } })

/-- The four conditions of eligibility, the grant of the first eligible port in cyclic order after the pointer, and the take that
finds no eligible port or a part in reset: it changes nothing. -/
def Obligations.GrantIsFirstEligible : Prop :=
  ∀ s : State,
    (∀ p : Fin 6, eligible s p = true ↔
      ∃ r, s.ports[p].slot = some r ∧ s.ports[p].tagLive[r.tag] = false ∧ held s p = false ∧
        s.drain.opState = .running) ∧
    (∀ p : Fin 6, grant s = some p ↔
      eligible s p = true ∧
        ∀ q : Fin 6, eligible s q = true → grantDistance s.lastGranted p ≤ grantDistance s.lastGranted q) ∧
    ((s.phase ≠ .running ∨ ∀ p : Fin 6, eligible s p = false) → exec .take s = .next { s with out := s.quietOut })

/-- A take of a request that crosses a 4096-byte boundary, in either mode: DENIED/BOUNDARY, counted in the port's default group,
and nothing else but the grant. -/
def Obligations.TakeDeniesBoundary : Prop :=
  ∀ (s : State) (p : Fin 6) (r : Request), s.phase = .running → grant s = some p → s.ports[p].slot = some r →
    4096 < r.address.toNat % 4096 + r.beats * 8 →
    exec .take s =
      .next { count s s.portRec[p].defGroup .denied 1 with
        lastGranted := p
        ports := portsAfterTake s p
        out := answeredAtTake s p r (.denied .boundary) }

/-- A take in BYPASS mode: with room in the table and the pool it is admitted as class 0, green, in the port's default group with
class 0's deadline and green hint; without, it is answered RETRY/POOL. -/
def Obligations.TakeInBypass : Prop :=
  ∀ (s : State) (p : Fin 6) (r : Request), s.phase = .running → grant s = some p → s.ports[p].slot = some r →
    r.address.toNat % 4096 + r.beats * 8 ≤ 4096 → s.drain.mode = .bypass →
    ((s.loads.liveCount = 64 ∨ 1024 < s.loads.totalLoad + r.beats) →
      exec .take s =
        .next { count s s.portRec[p].defGroup .retried 1 with
          lastGranted := p
          ports := portsAfterTake s p
          out := answeredAtTake s p r (.retry .pool) }) ∧
    (s.loads.liveCount ≠ 64 → s.loads.totalLoad + r.beats ≤ 1024 →
      exec .take s =
        .next { count (count s s.portRec[p].defGroup .admitted 1) s.portRec[p].defGroup .admittedBytes (r.beats * 8) with
          lastGranted := p
          ports := portsAfterAdmission s p r.tag
          loads := s.loads.add s.classRec p 0 r.beats
          writeStore := storeAfterAdmission s p r
          queues := s.queues.set 0 (s.queues[0] ++ [newDescriptor p r
            { cls := 0, colour := .green, group := s.portRec[p].defGroup, critical := false,
              deadline := s.classRec[0].deadline, hint := s.classRec[0].hintMap.green }])
          out := { s.quietOut with accepted := some p } })

/-- A take in ENFORCE mode whose DISPOSITION resolves to DENY: DENIED/RULE, counted in the resolved group, captured if NOTIFY is
YES, and nothing else but the grant. -/
def Obligations.TakeDeniedByRule : Prop :=
  ∀ (s : State) (p : Fin 6) (r : Request), s.phase = .running → grant s = some p → s.ports[p].slot = some r →
    r.address.toNat % 4096 + r.beats * 8 ≤ 4096 → s.drain.mode = .enforce → (resolve s p r).disposition = .deny →
    exec .take s =
      .next { capture (count s (resolve s p r).group .denied 1) p r (resolve s p r) none .deniedRule with
        lastGranted := p
        ports := portsAfterTake s p
        out := answeredAtTake s p r (.denied .rule) }

/-- A take in ENFORCE mode that the admission decision refuses: RETRY with its reason, MARKED_RED and RETRIED counted in the
resolved group, the lottery register as the decision left it, a capture if NOTIFY is YES, and nothing else but the grant. -/
def Obligations.TakeRefused : Prop :=
  ∀ (s : State) (p : Fin 6) (r : Request) (why : RetryReason) (lot : BitVec 16),
    s.phase = .running → grant s = some p → s.ports[p].slot = some r →
    r.address.toNat % 4096 + r.beats * 8 ≤ 4096 → s.drain.mode = .enforce → (resolve s p r).disposition ≠ .deny →
    enforceDecision s p r.beats (resolve s p r).cls (colourAt s p r (resolve s p r).meter)
      ((resolve s p r).disposition == .critical) = (.refuse why, lot) →
    exec .take s =
      .next { capture (count (countRed s (resolve s p r).group (colourAt s p r (resolve s p r).meter))
            (resolve s p r).group .retried 1) p r (resolve s p r) (some (colourAt s p r (resolve s p r).meter))
            (.retry why) with
        lastGranted := p
        ports := portsAfterTake s p
        lottery := lot
        out := answeredAtTake s p r (.retry why) }

/-- A take in ENFORCE mode that is admitted: its descriptor joins the tail of its class queue with the resolved treatment, the
loads rise, a WRITE's data is stored, its tag is LIVE, the meter is charged, the counts and the capture are made, the latches whose
quantities moved are evaluated, and HOLD_CHANGE is raised if that moves HELD. Nothing else changes.
The latches are evaluated once, against what the take leaves (the model's reading, log 12). -/
def Obligations.TakeAdmitted : Prop :=
  ∀ (s : State) (p : Fin 6) (r : Request) (res : Resolution) (c : Colour) (lot : BitVec 16),
    s.phase = .running → grant s = some p → s.ports[p].slot = some r →
    r.address.toNat % 4096 + r.beats * 8 ≤ 4096 → s.drain.mode = .enforce →
    res = resolve s p r → res.disposition ≠ .deny → c = colourAt s p r res.meter →
    enforceDecision s p r.beats res.cls c (res.disposition == .critical) = (.accept, lot) →
    let loads := s.loads.add s.classRec p res.cls r.beats
    let meters := chargeMeters s.meters res.meter c r.size
    let hold := latchesAfter { s with loads := loads, meters := meters } true (fun q => q == p)
      fun q => charged res.meter c s.portRec[q].paceMeter
    let u := capture (count (count (countRed s res.group c) res.group .admitted 1) res.group .admittedBytes
      (r.beats * 8)) p r res (some c) .admitted
    exec .take s =
      .next { u with
        lastGranted := p
        ports := portsAfterAdmission s p r.tag
        meters := meters
        loads := loads
        writeStore := storeAfterAdmission s p r
        lottery := lot
        hold := hold
        queues := s.queues.set res.cls (s.queues[res.cls] ++ [newDescriptor p r
          { cls := res.cls, colour := c, group := res.group, critical := res.disposition == .critical,
            deadline := res.deadline,
            hint := res.hintSet.getD (s.classRec[res.cls].hintMap.pick c) }])
        events := { u.events with sticky := stickyWith u.events.sticky (heldMoves s hold) .holdChange }
        out := { s.quietOut with accepted := some p } }

/-! ### Classification and colour -/

/-- A pattern matches exactly when its VALID flag is set and every present field matches: sets by membership, single values by
equality, beats by range, addresses nibble by nibble or by range on the start address. -/
def Obligations.PatternMatches : Prop :=
  ∀ (t : Pattern) (p : Fin 6) (r : Request),
    t.hits p r = true ↔
      t.valid = true ∧
      (t.hasPorts = true → t.ports.getLsbD p.val = true) ∧
      (t.hasKind = true → t.kind = r.kind) ∧
      (t.hasAddr = true →
        match t.addr with
        | .masked a mask => ∀ i : Fin 10, mask.getLsbD i.val = false → ∀ j < 4,
            r.address.getLsbD (4 * i.val + j) = a.getLsbD (4 * i.val + j)
        | .range a b => a.toNat ≤ r.address.toNat ∧ r.address.toNat ≤ b.toNat) ∧
      (t.hasBeats = true → t.beatsMin ≤ r.beats ∧ r.beats ≤ t.beatsMax) ∧
      (t.hasTags = true → t.tags.getLsbD r.tag.val = true) ∧
      (t.hasHints = true → t.hints.getLsbD r.hint.val = true) ∧
      (t.hasPriv = true → t.priv = r.priv)

/-- Resolution: each action type takes the value of the lowest-indexed matching rule of the ACTIVE bank whose claim is SET or
DEFAULT, its own under SET and the default under DEFAULT or without such a rule; the defaults are those of R26; and a capture is
asked for exactly when the deciding rule for NOTIFY claims it with SET YES. -/
def Obligations.ResolutionIsFirstMatch : Prop :=
  ∀ (s : State) (p : Fin 6) (r : Request),
    let hit : Fin 48 → Prop := fun i => s.rules[s.activeBank][i].pattern.hits p r = true
    let act : Fin 48 → Action := fun i => s.rules[s.activeBank][i].action
    let val : {α : Type} → (Action → Claimed α) → Option α := fun sel =>
      claimedValue s.rules[s.activeBank] (matching s p r) sel
    (∀ {α : Type} (sel : Action → Claimed α) (v : α), val sel = some v ↔
      ∃ i, hit i ∧ (sel (act i)).claim = .set ∧ (sel (act i)).value = v ∧
        ∀ j < i, hit j → (sel (act j)).claim = .absent) ∧
    (resolve s p r).cls = (val Action.cls).getD s.portRec[p].defClass ∧
    (resolve s p r).meter = (val Action.meter).getD s.portRec[p].defMeter ∧
    (resolve s p r).group = (val Action.group).getD s.portRec[p].defGroup ∧
    (resolve s p r).disposition = (val Action.disposition).getD .pass ∧
    (resolve s p r).deadline = (val Action.deadline).getD s.classRec[(resolve s p r).cls].deadline ∧
    (resolve s p r).hintSet = val Action.hint ∧
    (∀ i, (resolve s p r).capture = some i ↔
      hit i ∧ (act i).notify.claim = .set ∧ (act i).notify.value = true ∧
        ∀ j < i, hit j → (act j).notify.claim = .absent)

/-- The colour at the meter step: from the meter's tokens on a colour-blind port, capped by the pre-colour of the hint on a
colour-aware one, and the pre-colour itself where the meter is NONE. -/
def Obligations.ColourFromMeter : Prop :=
  ∀ (s : State) (p : Fin 6) (r : Request) (m : Fin 16),
    let S := r.beats * 8
    let blind := if S ≤ s.meters[m].c then Colour.green else if S ≤ s.meters[m].e then .yellow else .red
    (s.portRec[p].colourAware = false →
      colourAt s p r (some m) = blind ∧ colourAt s p r none = .green) ∧
    (s.portRec[p].colourAware = true →
      colourAt s p r none = s.portRec[p].colourMap[r.hint] ∧
      (s.portRec[p].colourMap[r.hint] = .green → colourAt s p r (some m) = blind) ∧
      (s.portRec[p].colourMap[r.hint] = .yellow →
        colourAt s p r (some m) = if S ≤ s.meters[m].e then .yellow else .red) ∧
      (s.portRec[p].colourMap[r.hint] = .red → colourAt s p r (some m) = .red))

/-- The charge at an admission takes S bytes from C for green, from E for yellow and nothing for red, from the resolved meter
alone; nothing under NONE; and the colour given from the same tokens leaves neither bucket short. -/
def Obligations.ChargeByColour : Prop :=
  ∀ (s : State) (p : Fin 6) (r : Request) (m : Fin 16),
    let S := r.beats * 8
    (∀ c, chargeMeters s.meters none c S = s.meters) ∧
    (∀ c (j : Fin 16), j ≠ m → (chargeMeters s.meters (some m) c S)[j] = s.meters[j]) ∧
    (chargeMeters s.meters (some m) .green S)[m] = { s.meters[m] with c := s.meters[m].c - S } ∧
    (chargeMeters s.meters (some m) .yellow S)[m] = { s.meters[m] with e := s.meters[m].e - S } ∧
    (chargeMeters s.meters (some m) .red S)[m] = s.meters[m] ∧
    (colourAt s p r (some m) = .green → S ≤ s.meters[m].c) ∧
    (colourAt s p r (some m) = .yellow → S ≤ s.meters[m].e)

/-! ### Admission -/

/-- The ENFORCE decision in its fixed order: pool and descriptors, critical path, reserved green, port limit, shared area, and
then the thresholds. No step before the thresholds moves the lottery register. -/
def Obligations.EnforceDecisionOrder : Prop :=
  ∀ (s : State) (p : Fin 6) (n : Nat) (k : Fin 8) (c : Colour) (crit : Bool),
    let full := s.loads.liveCount = 64 ∨ 1024 < s.loads.totalLoad + n
    let x := (s.loads.occ[k] + n - s.classRec[k].res) - (s.loads.occ[k] - s.classRec[k].res)
    let room := s.loads.sharedLoad + x ≤ s.loads.sharedCapacity
    let reserved := c = .green ∧ s.loads.occ[k] + n ≤ s.classRec[k].res
    let overLimit := s.portRec[p].limit < s.loads.portLoad[p] + n
    (full → enforceDecision s p n k c crit = (.refuse .pool, s.lottery)) ∧
    (¬full → crit = true → room → enforceDecision s p n k c crit = (.accept, s.lottery)) ∧
    (¬full → crit = true → ¬room → enforceDecision s p n k c crit = (.refuse .pool, s.lottery)) ∧
    (¬full → crit = false → reserved → enforceDecision s p n k c crit = (.accept, s.lottery)) ∧
    (¬full → crit = false → ¬reserved → overLimit →
      enforceDecision s p n k c crit = (.refuse .portLimit, s.lottery)) ∧
    (¬full → crit = false → ¬reserved → ¬overLimit → ¬room →
      enforceDecision s p n k c crit = (.refuse .pool, s.lottery)) ∧
    (¬full → crit = false → ¬reserved → ¬overLimit → room →
      enforceDecision s p n k c crit = thresholdStep s k c)

/-- The levels of step 6 and how they combine: pass below the minimum, reject above the maximum or at a pair without a band, a
band's lower half up to its midpoint and its upper half above; one draw with the larger code of the levels in their bands, none
where a level rejects or both pass. -/
def Obligations.ThresholdLevels : Prop :=
  (∀ (g : GlobalRecord) (t : Pair) (fill : Nat), t.min ≤ t.max →
    (fill < t.min → levelOf g t fill = .pass) ∧
    (t.max < fill → levelOf g t fill = .reject) ∧
    (t.min = t.max → fill = t.max → levelOf g t fill = .reject) ∧
    (t.min < t.max → t.min ≤ fill → fill ≤ t.max → fill ≤ t.min + (t.max - t.min) / 2 →
      levelOf g t fill = .band g.lotLower) ∧
    (t.min < t.max → t.min ≤ fill → fill ≤ t.max → t.min + (t.max - t.min) / 2 < fill →
      levelOf g t fill = .band g.lotUpper)) ∧
  (∀ (s : State) (k : Fin 8) (c : Colour),
    let lc := levelOf s.glob (s.classRec[k].thr.pick c) s.loads.occ[k]
    let lg := levelOf s.glob (s.glob.thr.pick c) s.loads.sharedLoad
    let draw : Fin 4 → Decision × BitVec 16 := fun code =>
      (if (lotteryShift s.lottery).toNat % 256 < [32, 64, 128, 192].getD code.val 0 then .refuse .lottery else .accept,
        lotteryShift s.lottery)
    (lc = .reject ∨ lg = .reject → thresholdStep s k c = (.refuse .threshold, s.lottery)) ∧
    (lc = .pass → lg = .pass → thresholdStep s k c = (.accept, s.lottery)) ∧
    (∀ a, lc = .band a → lg = .pass → thresholdStep s k c = draw a) ∧
    (∀ b, lc = .pass → lg = .band b → thresholdStep s k c = draw b) ∧
    (∀ a b, lc = .band a → lg = .band b → thresholdStep s k c = draw (if a ≤ b then b else a)))

/-- One shift of the lottery register: the feedback bit is the exclusive-or of bits 15, 13, 12 and 10, the other bits move up one
place, a value that is not 0 never becomes 0, and from 6D2Bh the first six values are those of R79. -/
def Obligations.LotteryRegisterShift : Prop :=
  (∀ v : BitVec 16,
    (lotteryShift v).getLsbD 0 =
      (((v.getLsbD 15 ^^ v.getLsbD 13) ^^ v.getLsbD 12) ^^ v.getLsbD 10) ∧
    (∀ i < 15, (lotteryShift v).getLsbD (i + 1) = v.getLsbD i) ∧
    (v ≠ 0#16 → lotteryShift v ≠ 0#16)) ∧
  ((List.range 6).map fun n => (lotteryShift^[n + 1]) 0x6D2B#16) =
    [0xDA56#16, 0xB4AC#16, 0x6958#16, 0xD2B1#16, 0xA562#16, 0x4AC5#16]

/-- An admission raises the four load quantities once, a freeing, of one descriptor or of the several that one tick or reset frees,
lowers them by what those hold, and the shared load is recomputed from the occupancies and reservations at either. -/
def Obligations.LoadsRiseAndFall : Prop :=
  ∀ (l : Loads) (recs : Vector ClassRecord 8),
    (∀ (p : Fin 6) (k : Fin 8) (n : Nat),
      let u := l.add recs p k n
      u.liveCount = l.liveCount + 1 ∧ u.totalLoad = l.totalLoad + n ∧
      (∀ j : Fin 8, u.occ[j] = if j = k then l.occ[k] + n else l.occ[j]) ∧
      (∀ q : Fin 6, u.portLoad[q] = if q = p then l.portLoad[p] + n else l.portLoad[q]) ∧
      u.sharedLoad = ((List.finRange 8).map fun j => u.occ[j] - recs[j].res).sum ∧
      u.sharedCapacity = l.sharedCapacity) ∧
    (∀ ds : List Descriptor,
      let beatsOf : (Descriptor → Bool) → Nat := fun f => ((ds.filter f).map fun d => d.lenM1.val + 1).sum
      let u := l.free recs ds
      u.liveCount = l.liveCount - ds.length ∧ u.totalLoad = l.totalLoad - (ds.map fun d => d.lenM1.val + 1).sum ∧
      (∀ j : Fin 8, u.occ[j] = l.occ[j] - beatsOf fun d => d.cls == j) ∧
      (∀ q : Fin 6, u.portLoad[q] = l.portLoad[q] - beatsOf fun d => d.port == q) ∧
      u.sharedLoad = ((List.finRange 8).map fun j => u.occ[j] - recs[j].res).sum ∧
      u.sharedCapacity = l.sharedCapacity)

/-! ### Holding and draining -/

/-- Each latch turns ON and OFF by its two conditions with hysteresis, an evaluation in ENFORCE mode reaches the latches named and
no other, none is evaluated in BYPASS mode, and a port is HELD exactly while an enabled latch of it is ON. -/
def Obligations.LatchHysteresis : Prop :=
  ∀ (s : State) (g : Bool) (pp pc : Fin 6 → Bool) (p : Fin 6),
    let C := s.meters[s.portRec[p].paceMeter].c
    let h := (evalLatches s g pp pc).hold
    (s.drain.mode = .bypass → h = s.hold) ∧
    (s.drain.mode = .enforce →
      (h.glob = true ↔
        if g = true then
          (s.hold.glob = false ∧ s.glob.holdOn ≤ s.loads.totalLoad) ∨
            (s.hold.glob = true ∧ ¬s.loads.totalLoad ≤ s.glob.holdOff)
        else s.hold.glob = true) ∧
      (h.port[p] = true ↔
        if pp p = true then
          (s.hold.port[p] = false ∧ s.portRec[p].holdOn ≤ s.loads.portLoad[p]) ∨
            (s.hold.port[p] = true ∧ ¬s.loads.portLoad[p] ≤ s.portRec[p].holdOff)
        else s.hold.port[p] = true) ∧
      (h.pace[p] = true ↔
        if pc p = true then
          (s.hold.pace[p] = false ∧ C < s.portRec[p].paceOn) ∨ (s.hold.pace[p] = true ∧ ¬s.portRec[p].paceOff ≤ C)
        else s.hold.pace[p] = true)) ∧
    (held s p = true ↔
      (s.portRec[p].globalPart = true ∧ s.hold.glob = true) ∨
      (s.portRec[p].holdEn = true ∧ s.hold.port[p] = true) ∨
      (s.portRec[p].paceEn = true ∧ s.hold.pace[p] = true))

/-- HOLD_CHANGE is raised by a command exactly when it changes the HELD state of some port; a reset and CLEAR_EVENTS, which clear
events, are set apart. -/
def Obligations.HoldChangeExactly : Prop :=
  ∀ (c : Instr) (s t : State), clearsEvents c = false → exec c s = .next t →
    (t.isRaised .holdChange = true ↔ s.isRaised .holdChange = true ∨ ∃ p : Fin 6, held t p ≠ held s p)

/-- DRAIN adds COMMAND in RUNNING, and is BUSY otherwise; RELEASE removes COMMAND, and LINE except under LEVEL_LOW, where LINE
left in the set answers BUSY. The operating state moves by R95, and nothing else changes. -/
def Obligations.DrainAndRelease : Prop :=
  ∀ (f : FrameBits) (s : State), OpStateAgrees s → frameReady s = true → endsAt f 1 3 →
    (s.drain.opState = .running → s.loads.liveCount ≠ 0 →
      exec (.drain f) s =
        .next { afterFrame s f 1 [] .done with drain := { s.drain with opState := .draining, command := true } }) ∧
    (s.drain.opState = .running → s.loads.liveCount = 0 →
      exec (.drain f) s =
        .next { afterFrame s f 1 [] .done with
          drain := { s.drain with opState := .drained, command := true }
          events := { s.events with sticky := s.events.sticky ||| Sticky.drainDone.bit } }) ∧
    (s.drain.opState ≠ .running → exec (.drain f) s = .next (afterFrame s f 1 [] .busy)) ∧
    (s.drain.line = true → s.glob.quiesceMode = .levelLow →
      exec (.release f) s = .next { afterFrame s f 1 [] .busy with drain := { s.drain with command := false } }) ∧
    (s.drain.line = false ∨ s.glob.quiesceMode ≠ .levelLow →
      exec (.release f) s =
        .next { afterFrame s f 1 [] .done with
          drain := { s.drain with opState := .running, command := false, line := false } })

/-- An edge of QUIESCE adds or removes LINE by `quiesce_mode`, and the operating state moves by R95; while the part is in reset
the edge only moves the level.
An edge acts as it is given, whatever level the line had (the model's choice, log 20). -/
def Obligations.QuiesceEdge : Prop :=
  ∀ (e : Edge) (s : State), OpStateAgrees s →
    let level := e = .rising
    let line' : Bool :=
      match s.glob.quiesceMode, e with
      | .levelLow, .falling => true
      | .levelLow, .rising => false
      | .falling, .falling => true
      | .rising, .rising => true
      | _, _ => s.drain.line
    let moved : State := { s with out := s.quietOut, pins := { s.pins with quiesceHigh := decide level } }
    (s.phase ≠ .running → exec (.quiesceChange e) s = .next moved) ∧
    (s.phase = .running →
      (line' = s.drain.line → exec (.quiesceChange e) s = .next moved) ∧
      (line' = true → s.drain.opState = .running → s.loads.liveCount ≠ 0 →
        exec (.quiesceChange e) s =
          .next { moved with drain := { s.drain with opState := .draining, line := true } }) ∧
      (line' = true → s.drain.opState = .running → s.loads.liveCount = 0 →
        exec (.quiesceChange e) s =
          .next { moved with
            drain := { s.drain with opState := .drained, line := true }
            events := { s.events with sticky := s.events.sticky ||| Sticky.drainDone.bit } }) ∧
      (line' = true → s.drain.opState ≠ .running →
        exec (.quiesceChange e) s = .next { moved with drain := { s.drain with line := true } }) ∧
      (line' = false → s.drain.command = true →
        exec (.quiesceChange e) s = .next { moved with drain := { s.drain with line := false } }) ∧
      (line' = false → s.drain.command = false →
        exec (.quiesceChange e) s =
          .next { moved with drain := { s.drain with opState := .running, line := false } }))

/-- SET_MODE: REFUSED for a byte that is no mode, BUSY outside DRAINED, and in DRAINED the carried mode, with every latch OFF on the
way to BYPASS and evaluated from OFF on the way to ENFORCE, and HOLD_CHANGE if that moves HELD. -/
def Obligations.SetModeCommand : Prop :=
  ∀ (f : FrameBits) (s : State) (m : Mode), frameReady s = true → endsAt f 1 4 →
    (byteAt f.bytes 2 ≠ 0x00#8 → byteAt f.bytes 2 ≠ 0x01#8 →
      exec (.setMode f) s = .next (afterFrame s f 1 [] .refused)) ∧
    (byteAt f.bytes 2 = modeByte m → s.drain.opState ≠ .drained →
      exec (.setMode f) s = .next (afterFrame s f 1 [] .busy)) ∧
    (byteAt f.bytes 2 = modeByte m → s.drain.opState = .drained → s.drain.mode = m →
      exec (.setMode f) s = .next (afterFrame s f 1 [] .done)) ∧
    (byteAt f.bytes 2 = modeByte m → s.drain.opState = .drained → s.drain.mode ≠ m →
      let h := match m with
        | .bypass => HoldLatches.reset
        | .enforce => latchesAfter { s with drain := { s.drain with mode := .enforce }, hold := .reset } true
            (fun _ => true) fun _ => true
      exec (.setMode f) s =
        .next { afterFrame s f 1 [] .done with
          drain := { s.drain with mode := m }
          hold := h
          events := { s.events with sticky := stickyWith s.events.sticky (heldMoves s h) .holdChange } })

/-- DRAIN_DONE is raised by a command exactly when the operating state enters DRAINED by the end of a drain; resets and
CLEAR_EVENTS, which clear events, and the end of a reset, which samples START_HELD, are set apart. -/
def Obligations.DrainDoneExactly : Prop :=
  ∀ (c : Instr) (s t : State), OpStateAgrees s → clearsEvents c = false → (∀ e, c ≠ .endOfReset e) →
    exec c s = .next t →
    (t.isRaised .drainDone = true ↔
      s.isRaised .drainDone = true ∨ (s.drain.opState ≠ .drained ∧ t.drain.opState = .drained))

/-! ### The memory port -/

/-- An issue hands the head of the chosen class to memory under the lowest-numbered FREE tag, which becomes BUSY with it; no load,
count or store changes. Without memory ready, a FREE tag or queued work, or in reset, only the level of READY is kept.
The level of READY comes with the command (the model's choice, log 9). -/
def Obligations.IssueHandsOver : Prop :=
  ∀ (s : State) (ready : Bool),
    let s' := { s with out := s.quietOut, pins := { s.pins with memReady := ready } }
    ((s.phase ≠ .running ∨ ready = false ∨ (∀ t : Fin 32, s.tags[t].isFree = false) ∨ ∀ k : Fin 8, s.queues[k] = []) →
      exec (.issue ready) s = .next s') ∧
    (∀ (t : Fin 32) (k : Fin 8) (sched : Sched) (d : Descriptor) (rest : List Descriptor),
      s.phase = .running → ready = true → s.tags[t] = .free → (∀ u < t, s.tags[u].isFree = false) →
      chooseClass s = some (k, sched) → s.queues[k] = d :: rest →
      exec (.issue ready) s =
        .next { s' with
          queues := s.queues.set k rest
          sched := sched
          tags := s.tags.set t (.busy { d with state := .issued, dtag := some t })
          out := { s.quietOut with
            downstream := some { dtag := t, kind := d.kind, address := d.address, lenM1 := d.lenM1, hint := d.hint,
                                 data := d.dataRef.map (storedData s) } } })

/-- The class an issue chooses: the lowest STRICT_HIGH class with work; else the WEIGHTED class the visits of R110 end in, each from
the first WEIGHTED class with work at or after the pointer, cyclically, which is chosen where its deficit covers its head and
otherwise gains exactly its weight and is passed; else the lowest STRICT_LOW class with work. Some class is chosen whenever one has
work and every weight is at least 1, and a strict choice moves neither deficits nor pointer. -/
def Obligations.SchedulerChoice : Prop :=
  ∀ s : State, (∀ k : Fin 8, 1 ≤ s.classRec[k].weight) →
    let work : SchedMode → Fin 8 → Prop := fun m k => s.classRec[k].mode = m ∧ s.queues[k] ≠ []
    (∀ k, work .strictHigh k → (∀ j < k, ¬work .strictHigh j) → chooseClass s = some (k, s.sched)) ∧
    ((∀ k, ¬work .strictHigh k) → (∃ k, work .weighted k) →
      ∃ r, RoundFrom s s.sched.roundPtr s.sched.deficit r ∧ weightedRound s = some r ∧
        chooseClass s = some (r.cls, afterWeighted s r) ∧ work .weighted r.cls ∧
        headLoad s r.cls ≤ r.deficit[r.cls] ∧
        ∀ j, s.sched.deficit[j] ≤ r.deficit[j] ∧ (¬work .weighted j → r.deficit[j] = s.sched.deficit[j])) ∧
    ((∀ k, ¬work .strictHigh k) → (∀ k, ¬work .weighted k) →
      ∀ k, work .strictLow k → (∀ j < k, ¬work .strictLow j) → chooseClass s = some (k, s.sched))

/-- After a weighted issue the class's deficit falls by its head's load and the pointer stays; if its queue is now empty the
deficit is 0 and the pointer moves past it. No other class's deficit moves. -/
def Obligations.DeficitAfterWeightedIssue : Prop :=
  ∀ (s : State) (r : Round) (d : Descriptor) (rest : List Descriptor), s.queues[r.cls] = d :: rest →
    (∀ j : Fin 8, j ≠ r.cls → (afterWeighted s r).deficit[j] = r.deficit[j]) ∧
    (rest ≠ [] →
      (afterWeighted s r).deficit[r.cls] = r.deficit[r.cls] - d.beats ∧ (afterWeighted s r).roundPtr = r.cls) ∧
    (rest = [] →
      (afterWeighted s r).deficit[r.cls] = 0 ∧ (afterWeighted s r).roundPtr.val = (r.cls.val + 1) % 8)

/-- An OKAY completion on a BUSY tag answers OKAY, a READ with exactly its beats of data, the missing ones zero; frees the
descriptor and the tag; evaluates the latches and ends a drain it completes. Nothing is counted, and nothing else changes.
The latches are evaluated against what the completion leaves (log 12). -/
def Obligations.CompletionOkay : Prop :=
  ∀ (s : State) (t : Fin 32) (d : Descriptor) (data : List Beat), s.phase = .running → s.tags[t] = .busy d →
    let loads := s.loads.free s.classRec [d]
    let hold := holdAfterFreeing s [d]
    let op := opStateAfterFreeing s.drain.opState loads.liveCount
    ∃ u, exec (.completion t .okay data) s = .next u ∧
      u = { s with
        loads := loads
        writeStore := storeAfterFreeing s [d]
        ports := portsAfterFreeing s [d]
        tags := s.tags.set t .free
        hold := hold
        drain := { s.drain with opState := op }
        events := { s.events with
          sticky := stickyWith (stickyWith s.events.sticky (decide (s.drain.opState ≠ op)) .drainDone)
            (heldMoves s hold) .holdChange }
        out := u.out } ∧
      (∃ rd, u.out = { s.quietOut with
          responses := Outputs.quiet.responses.set d.port [⟨d.tag, .okay, rd⟩] } ∧
        (d.kind = .write → rd = none) ∧
        (d.kind = .read → ∃ l, rd = some l ∧ l.length = d.beats ∧ ∀ i < d.beats, l.getD i 0#64 = data.getD i 0#64))

/-- An ERROR completion on a BUSY tag answers FAULT/MEMORY, counts FAULTED in the descriptor's group, raises MEMORY_ERROR and
frees the descriptor and the tag as an OKAY one does.
(Latches: log 12.) -/
def Obligations.CompletionError : Prop :=
  ∀ (s : State) (t : Fin 32) (d : Descriptor) (data : List Beat), s.phase = .running → s.tags[t] = .busy d →
    let loads := s.loads.free s.classRec [d]
    let hold := holdAfterFreeing s [d]
    let op := opStateAfterFreeing s.drain.opState loads.liveCount
    let u := count s d.group .faulted 1
    exec (.completion t .error data) s =
      .next { u with
        loads := loads
        writeStore := storeAfterFreeing s [d]
        ports := portsAfterFreeing s [d]
        tags := s.tags.set t .free
        hold := hold
        drain := { s.drain with opState := op }
        events := { u.events with
          sticky := stickyWith (stickyWith (u.events.sticky ||| Sticky.memoryError.bit)
            (decide (s.drain.opState ≠ op)) .drainDone) (heldMoves s hold) .holdChange }
        out := { s.quietOut with
          responses := Outputs.quiet.responses.set d.port [⟨d.tag, .fault .memory, none⟩] } }

/-- A completion on an ORPHAN tag frees the tag and does nothing else, whatever its status; one on a FREE tag raises
STRAY_COMPLETION and does nothing else; one that arrives during a reset does nothing. -/
def Obligations.CompletionLateOrStray : Prop :=
  ∀ (s : State) (t : Fin 32) (st : MemStatus) (data : List Beat),
    (s.phase = .running → ∀ o, s.tags[t] = .orphan o →
      exec (.completion t st data) s = .next { s with out := s.quietOut, tags := s.tags.set t .free }) ∧
    (s.phase = .running → s.tags[t] = .free →
      exec (.completion t st data) s =
        .next { s with
          out := s.quietOut, events := { s.events with sticky := s.events.sticky ||| Sticky.strayCompletion.bit } }) ∧
    (s.phase ≠ .running → exec (.completion t st data) s = .next { s with out := s.quietOut })

/-! ### Ticks and deadlines -/

/-- At a tick every meter takes CIR into its committed bucket, and what that bucket cannot hold spills into the excess bucket up to
its size.
TICK does so whatever the counter held (the model's choice, log 3). -/
def Obligations.TickRefillsMeters : Prop :=
  ∀ s : State, s.phase = .running →
    ∃ t, exec .tick s = .next t ∧ t.tickCounter = 0 ∧ ∀ m : Fin 16,
      t.meters[m].cir = s.meters[m].cir ∧ t.meters[m].cbs = s.meters[m].cbs ∧ t.meters[m].ebs = s.meters[m].ebs ∧
      (s.meters[m].c + s.meters[m].cir ≤ s.meters[m].cbs →
        t.meters[m].c = s.meters[m].c + s.meters[m].cir ∧ t.meters[m].e = s.meters[m].e) ∧
      (s.meters[m].cbs < s.meters[m].c + s.meters[m].cir →
        t.meters[m].c = s.meters[m].cbs ∧
        t.meters[m].e =
          min s.meters[m].ebs (s.meters[m].e + (s.meters[m].c + s.meters[m].cir - s.meters[m].cbs)))

/-- A tick on a part with no expiry still to be carried out: every live descriptor's count falls by 1 unless it is 0; those that
had 1 expire: they leave their queues, their BUSY tags become ORPHAN with cause EXPIRED, they are answered FAULT/EXPIRED in tag
order on each port, counted FAULTED in their groups, and freed. Every pace latch is evaluated against the refilled tokens, and the
global latch and the port latches of the freed against the loads the tick leaves (once each: the model's reading, log 12). EXPIRED,
DRAIN_DONE and HOLD_CHANGE are raised where they fall due, and COUNTER_HALF by the counts; every other sticky bit, and the part
outside the meters and what expired, stays. TICK does so whatever the counter held (the model's choice, log 3). -/
def Obligations.TickCountsDownAndExpires : Prop :=
  ∀ s : State, s.phase = .running → NoneRanOut s →
    let lowered : Descriptor → Descriptor := fun d => { d with deadline := d.deadline - 1 }
    let after : Descriptor → Descriptor := fun d => if d.deadline = 0 then d else lowered d
    let ds := ((liveDescriptors s).filter fun d => d.deadline == 1).map fun d => { lowered d with ranOut := true }
    let u := countEach s (ds.map Descriptor.group) .faulted
    ∃ t, exec .tick s = .next t ∧
      (∀ k : Fin 8, t.queues[k] = (s.queues[k].filter fun d => d.deadline != 1).map after) ∧
      (∀ i : Fin 32, t.tags[i] =
        match s.tags[i] with
        | .free => .free
        | .orphan o => .orphan o
        | .busy d => if d.deadline = 1 then .orphan (d.orphaned .expired) else .busy (after d)) ∧
      t.loads = s.loads.free s.classRec ds ∧ t.writeStore = storeAfterFreeing s ds ∧
      t.ports = portsAfterFreeing s ds ∧
      t.hold = latchesAfter { s with meters := t.meters, loads := t.loads } (!ds.isEmpty)
        (fun p => ds.any fun d => d.port == p) (fun _ => true) ∧
      t.counters = u.counters ∧
      t.events = { u.events with
        sticky := stickyWith (stickyWith (stickyWith u.events.sticky (!ds.isEmpty) .expired)
          (decide (s.drain.opState ≠ t.drain.opState)) .drainDone) (heldMoves s t.hold) .holdChange } ∧
      t.drain = { s.drain with opState := opStateAfterFreeing s.drain.opState t.loads.liveCount } ∧
      t.sched.roundPtr = s.sched.roundPtr ∧
      (∀ k : Fin 8, t.sched.deficit[k] = if s.queues[k] ≠ [] ∧ t.queues[k] = [] then 0 else s.sched.deficit[k]) ∧
      t.out = { s.quietOut with responses := .ofFn fun p => runOfResponses ds (.fault .expired) p } ∧
      t = { s with
        tickCounter := t.tickCounter, meters := t.meters, loads := t.loads, writeStore := t.writeStore,
        ports := t.ports, hold := t.hold, drain := t.drain, queues := t.queues, sched := t.sched, tags := t.tags,
        counters := t.counters, events := t.events, out := t.out }

/-- EXPIRY carries out every expiry that stands: each descriptor whose count has run out is answered FAULT/EXPIRED, counted in its
group, taken from its queue or its tag, and freed. (A tick leaves none standing; that the row then finds none is the model's
reading, log 4. The latches are evaluated once, against what all the expiries leave: the model's reading, log 12.) -/
def Obligations.ExpiryCommand : Prop :=
  ∀ s : State, s.phase = .running →
    let ds := (liveDescriptors s).filter Descriptor.ranOut
    let loads := s.loads.free s.classRec ds
    let hold := holdAfterFreeing s ds
    let op := opStateAfterFreeing s.drain.opState loads.liveCount
    let u := countEach s (ds.map Descriptor.group) .faulted
    exec .expiry s =
      .next { u with
        queues := .ofFn fun k => s.queues[k].filter fun d => !d.ranOut
        sched := { s.sched with deficit := .ofFn fun k =>
          if !s.queues[k].isEmpty && s.queues[k].all Descriptor.ranOut then 0 else s.sched.deficit[k] }
        tags := .ofFn fun i => s.tags[i].expire
        loads := loads
        writeStore := storeAfterFreeing s ds
        ports := portsAfterFreeing s ds
        hold := hold
        drain := { s.drain with opState := op }
        events := { u.events with
          sticky := stickyWith (stickyWith (stickyWith u.events.sticky (!ds.isEmpty) .expired)
            (decide (s.drain.opState ≠ op)) .drainDone) (heldMoves s hold) .holdChange }
        out := { s.quietOut with responses := .ofFn fun p => runOfResponses ds (.fault .expired) p } }

/-! ### Resets -/

/-- POWER_ON_RESET and LINE_RESET: nothing is answered, every block holds its reset values until the reset ends, the initiators keep
what they present, and the reset cause record holds POWER_ON alone, or LINE on top of what it held. A frame in progress is abandoned
without a result, and what SDO has carried in it stands at that event. That a reset lasts until
END_OF_RESET is the model's reading (log 7). RESET_N low during a power-on reset moves only the level (the model's reading, log 11),
and LINE_RESET during a line reset changes nothing (the model's choice, log 19). -/
def Obligations.ResetsHoldThePart : Prop :=
  ∀ s : State,
    let held' (ph : Phase) (cause : ResetCause) (resetN : Bool) : State :=
      { State.reset with
        phase := ph
        pins := { s.pins with resetNHigh := resetN }
        ports := .ofFn fun p => { PortState.reset with channel := s.ports[p].channel }
        cause := cause
        out := s.quietOut
        pending := s.pending }
    exec .powerOnReset s = .next (held' .powerOnReset ⟨true, false, false⟩ s.pins.resetNHigh) ∧
    (s.phase = .running → exec .lineReset s = .next (held' .lineReset { s.cause with line := true } false)) ∧
    (s.phase = .powerOnReset →
      exec .lineReset s = .next { s with out := s.quietOut, pins := { s.pins with resetNHigh := false } }) ∧
    (s.phase = .lineReset → exec .lineReset s = .next { s with out := s.quietOut })

/-- The end of a reset: the part runs, START_HELD decides the operating state, the ports capture what is still presented, and the
Management Port waits for CS_N where it is low. RESET_N low as a power-on reset ends makes it a line reset as well; and CS_N going
high lets the port begin a frame again.
Where no reset or selection is there to end, nothing changes (the model's choice, log 19). -/
def Obligations.EndOfResetCommands : Prop :=
  ∀ (s : State) (e : ResetEnd),
    let left : State :=
      { s with
        out := s.quietOut
        phase := .running
        pins := { s.pins with resetNHigh := true, startHeld := e.startHeld }
        ports := .ofFn fun p =>
          let c := if e.stillPresenting.getLsbD p.val then s.ports[p].channel else none
          { s.ports[p] with channel := c, slot := c }
        tickCounter := 0
        drain := if e.startHeld then ⟨.bypass, .drained, true, false⟩ else ⟨.bypass, .running, false, false⟩
        mgmt := { s.mgmt with awaitCsHigh := e.csNLow } }
    (s.phase ≠ .running → e.resetNHigh = true → exec (.endOfReset e) s = .next left) ∧
    (s.phase = .powerOnReset → e.resetNHigh = false →
      exec (.endOfReset e) s =
        .next { s with
          out := s.quietOut
          phase := .lineReset
          pins := { s.pins with resetNHigh := false }
          cause := { s.cause with line := true } }) ∧
    (s.phase = .lineReset → e.resetNHigh = false → exec (.endOfReset e) s = .next { s with out := s.quietOut }) ∧
    (s.phase = .running → exec (.endOfReset e) s = .next { s with out := s.quietOut }) ∧
    (s.phase = .running →
      exec .csNHighAfterReset s = .next { s with out := s.quietOut, mgmt := { s.mgmt with awaitCsHigh := false } }) ∧
    (s.phase ≠ .running → exec .csNHighAfterReset s = .next { s with out := s.quietOut })

/-- GOVERNOR_RESET of the right length: every live transaction is answered FAULT/RESET in tag order on its port, BUSY tags become
ORPHAN with cause RESET and ORPHAN tags stay, GOVERNOR joins the causes, START_HELD is sampled, the slots and the Management Port
are kept, and every other block takes its reset values. -/
def Obligations.GovernorResetCommand : Prop :=
  ∀ (held' : Bool) (f : FrameBits) (s : State), frameReady s = true → endsAt f 1 3 →
    exec (.governorReset held' f) s =
      .next { State.reset with
        phase := .running
        pins := { s.pins with startHeld := held' }
        ports := .ofFn fun p => { s.ports[p] with tagLive := .replicate 8 false }
        drain := if held' then ⟨.bypass, .drained, true, false⟩ else ⟨.bypass, .running, false, false⟩
        tags := .ofFn fun t =>
          match s.tags[t] with
          | .free => .free
          | .busy d => .orphan (d.orphaned .reset)
          | .orphan o => .orphan o
        cause := { s.cause with governor := true }
        mgmt := { s.mgmt with result := .done, openFrame := none }
        out := { s.quietOut with
          sdo := some (shiftedOut s f 1 [])
          responses := .ofFn fun p => runOfResponses (liveDescriptors s) (.fault .reset) p }
        pending := s.pending }

/-! ### Counters, captures and events -/

/-- A counting event adds its amount modulo 2^32 to the one counter where it is enabled, and leaves every other; it sets the
group's half bit and COUNTER_HALF exactly when it takes the counter from below 80000000h to 80000000h or above, and changes no other
sticky event. -/
def Obligations.CountAddsAndCrosses : Prop :=
  ∀ (s : State) (g : Fin 24) (c : Counter) (n : Nat),
    let t := count s g c n
    let on := s.glob.statsEnable = true ∧ s.glob.enables[g].getLsbD c.idx.val = true
    let crossed := on ∧ (counterValue s g c).toNat < 2 ^ 31 ∧ 2 ^ 31 ≤ (counterValue t g c).toNat
    (on → (counterValue t g c).toNat = ((counterValue s g c).toNat + n) % 2 ^ 32) ∧
    (∀ (g' : Fin 24) (c' : Counter), ¬on ∨ g' ≠ g ∨ c' ≠ c → counterValue t g' c' = counterValue s g' c') ∧
    (∀ g' : Fin 24, t.counters.half[g'] = true ↔ s.counters.half[g'] = true ∨ (g' = g ∧ crossed)) ∧
    (t.isRaised .counterHalf = true ↔ s.isRaised .counterHalf = true ∨ crossed) ∧
    (∀ e : Sticky, e ≠ .counterHalf → t.isRaised e = s.isRaised e) ∧
    t = { s with counters := t.counters, events := { s.events with sticky := t.events.sticky } }

/-- A capture appends its record to a queue of fewer than sixteen, and on a full queue loses it with CAPTURE_LOST; without NOTIFY
YES nothing is captured. The record holds the ACTIVE bank, the deciding rule, the request and the take's class, colour and
outcome. -/
def Obligations.CaptureAppendsOrLoses : Prop :=
  ∀ (s : State) (p : Fin 6) (r : Request) (res : Resolution) (c : Option Colour) (o : TakeOutcome),
    (res.capture = none → capture s p r res c o = s) ∧
    (∀ i, res.capture = some i → s.captures.length < 16 →
      capture s p r res c o =
        { s with captures := s.captures ++ [{ bank := s.activeBank, rule := i, port := p, tag := r.tag, kind := r.kind,
                                              address := r.address, lenM1 := r.lenM1, cls := res.cls, colour := c,
                                              outcome := o }] }) ∧
    (∀ i, res.capture = some i → 16 ≤ s.captures.length →
      capture s p r res c o =
        { s with events := { s.events with sticky := s.events.sticky ||| Sticky.captureLost.bit } })

/-- POP_CAPTURE: its snapshot, when byte 2 completes, takes the record at the head, or zeros; its end removes that record with DONE,
or answers EMPTY where there was none, or BAD_FRAME with FRAME_ERROR for a wrong length; one command may give both moments, or one
each with others between; until its end the frame stands open with what SDO has carried. A frame that comes where the port takes
none, and one that resumes no frame of its own, change nothing (the model's choice, log 6). The split into two commands is the
model's (log 5). -/
def Obligations.PopCaptureFrames : Prop :=
  ∀ (f : FrameBits) (s : State),
    let snap : Snapshot :=
      { source := .popCapture, data := (s.captures.head?.map captureBytes).getD [], found := !s.captures.isEmpty }
    let goesOn : Option Snapshot → List Byte → State := fun o data =>
      { s with
        out := { Outputs.quiet with sdo := some (shiftedOut s f 1 data) }
        mgmt := { s.mgmt with openFrame := some ⟨o, shiftedOut s f 1 data⟩ } }
    (frameReady s = true → f.ended = false → 16 ≤ f.bits.length →
      exec (.popCapture .opening f) s = .next (goesOn (some snap) snap.data)) ∧
    (frameReady s = true → f.ended = false → f.bits.length < 16 →
      exec (.popCapture .opening f) s = .next (goesOn none [])) ∧
    (frameReady s = true → endsAt f 1 15 → s.captures = [] →
      exec (.popCapture .opening f) s = .next (afterFrame s f 1 [] .empty)) ∧
    (∀ c rest, frameReady s = true → endsAt f 1 15 → s.captures = c :: rest →
      exec (.popCapture .opening f) s =
        .next { afterFrame s f 1 (captureBytes c) .done with captures := rest }) ∧
    (∀ o, s.phase = .running → openSnapshot s = some o → o.source = .popCapture → f.ended = false →
      exec (.popCapture .resuming f) s = .next (goesOn (some o) o.data)) ∧
    (∀ o, s.phase = .running → openSnapshot s = some o → o.source = .popCapture → endsAt f 1 15 →
      exec (.popCapture .resuming f) s =
        .next (if o.found = true then { afterFrame s f 1 o.data .done with captures := s.captures.tail }
          else afterFrame s f 1 o.data .empty)) ∧
    (∀ o, s.phase = .running → openSnapshot s = some o → o.source = .popCapture → f.ended = true → f.edges 1 ≠ 8 * 15 →
      exec (.popCapture .resuming f) s =
        .next { afterFrame s f 1 o.data .badFrame with
          events := { s.events with sticky := s.events.sticky ||| Sticky.frameError.bit } }) ∧
    (frameReady s = false → exec (.popCapture .opening f) s = .next { s with out := s.quietOut }) ∧
    (s.phase ≠ .running ∨ (∀ o, openSnapshot s = some o → o.source ≠ .popCapture) →
      exec (.popCapture .resuming f) s = .next { s with out := s.quietOut })

/-- CLEAR_GROUP, CLEAR_ALL_COUNTERS, CLEAR_EVENTS and CLEAR_CAUSE clear what they name and nothing else, and the two that name
something out of range are REFUSED. -/
def Obligations.ClearCommands : Prop :=
  ∀ (f : FrameBits) (s : State), frameReady s = true →
    (∀ g : Fin 24, endsAt f 1 3 → byteAt f.bytes 1 = BitVec.ofNat 8 g.val →
      exec (.clearGroup f) s =
        .next { afterFrame s f 1 [] .done with
          counters := ⟨s.counters.groups.set g (.replicate 6 0#32), s.counters.half.set g false⟩ }) ∧
    (endsAt f 1 3 → 24 ≤ (byteAt f.bytes 1).toNat →
      exec (.clearGroup f) s = .next (afterFrame s f 1 [] .refused)) ∧
    (endsAt f 1 3 →
      exec (.clearAllCounters f) s =
        .next { afterFrame s f 1 [] .done with
          counters := ⟨.replicate 24 (.replicate 6 0#32), .replicate 24 false⟩ }) ∧
    (endsAt f 1 8 → byteAt f.bytes 6 = 0#8 →
      exec (.clearEvents f) s =
        .next { afterFrame s f 1 [] .done with
          events := { s.events with sticky := s.events.sticky &&& ~~~(byteAt f.bytes 2) }
          counters := { s.counters with half := .ofFn fun g =>
            s.counters.half[g] && !(byteAt f.bytes (3 + g.val / 8)).getLsbD (g.val % 8) } }) ∧
    (endsAt f 1 8 → byteAt f.bytes 6 ≠ 0#8 →
      exec (.clearEvents f) s = .next (afterFrame s f 1 [] .refused)) ∧
    (endsAt f 1 3 →
      exec (.clearCause f) s = .next { afterFrame s f 1 [] .done with cause := ⟨false, false, false⟩ })

/-- ALERT is high exactly while the part runs and some sticky event is set, or a level flag true, whose mask bit is clear; the two
level flags are true exactly while their conditions hold; and DRAINED follows the operating state. -/
def Obligations.AlertAndDrainedLines : Prop :=
  ∀ s : State,
    (captureReady s = true ↔ s.captures ≠ []) ∧
    (tagsStuck s = true ↔ ∀ t : Fin 32, ∃ o, s.tags[t] = .orphan o) ∧
    (alertLine s = true ↔ s.phase = .running ∧
      ((∃ i < 8, s.events.sticky.getLsbD i = true ∧ s.events.mask.getLsbD i = false) ∨
        (captureReady s = true ∧ s.events.mask.getLsbD 8 = false) ∨
        (tagsStuck s = true ∧ s.events.mask.getLsbD 9 = false))) ∧
    (drainedLine s = true ↔ s.phase = .running ∧ s.drain.opState = .drained)

/-! ### Management frames -/

/-- A frame that ends and names no row, or whose length is not its row's, is discarded: BAD_FRAME and FRAME_ERROR, and nothing else
changes but SDO. A frame that goes on, of a row that takes no snapshot, changes nothing but what SDO has carried in it. Where the
port takes no frame (in reset, or a snapshot open, or CS_N low since a reset), nothing changes (the model's choice, log 6). -/
def Obligations.FramesDiscardedOrIgnored : Prop :=
  ∀ (i : Instr) (F : FrameBits) (s : State), i.wellFormed = true → encodeFrame i = some F →
    (frameReady s = true → F.ended = true → (∀ n, rightLength F = some n → F.edges 0 ≠ 8 * n) →
      ∃ sdo, exec i s =
        .next { s with
          out := { Outputs.quiet with sdo := some sdo }
          mgmt := { s.mgmt with result := .badFrame, openFrame := none }
          events := { s.events with sticky := s.events.sticky ||| Sticky.frameError.bit } }) ∧
    (frameReady s = true → F.ended = false → (∀ t f, i ≠ .readEntry .opening t f) → (∀ f, i ≠ .popCapture .opening f) →
      ∃ sdo, exec i s =
        .next { s with
          out := { Outputs.quiet with sdo := some sdo }
          mgmt := { s.mgmt with openFrame := some ⟨none, sdo⟩ } }) ∧
    (frameReady s = false → exec i s = .next { s with out := s.quietOut })

/-- What SDO carries in a frame from its beginning, whether it goes on or ends: one bit for each rising edge of SCK (the model's
reading of where the bits are counted, log 21), in groups of eight with the most significant first, of the result of the frame
before, two zeros, the read data, and zeros after it, for as long as the frame is clocked. SDO is driven on while the frame goes on,
and what it has carried stands through an event that leaves the frame open. -/
def Obligations.FrameShiftsOut : Prop :=
  (∀ (i : Instr) (F : FrameBits) (s : State), encodeFrame i = some F → frameReady s = true →
    ∃ t l, exec i s = .next t ∧ t.out.sdo = some l ∧ l.length = F.edges 0 ∧
      (∀ n j, j < 8 → 8 * n + j < l.length →
        l.getD (8 * n + j) false =
          (if n = 0 then s.mgmt.result.byte else if n < 3 then 0#8
            else (readDataOf s i).getD (n - 3) 0#8).getLsbD (7 - j)) ∧
      (sdoDriven t = true ↔ F.ended = false) ∧
      (F.ended = false → t.mgmt.openFrame.map OpenFrame.shifted = some l)) ∧
  (∀ s : State, s.quietOut.sdo = s.mgmt.openFrame.map OpenFrame.shifted ∧
    (sdoDriven s = true ↔ s.mgmt.openFrame ≠ none))

/-- READ_ENTRY: its snapshot, when byte 2 completes, takes the entry as it stands, or zeros for an index out of its table's range;
its end answers DONE or REFUSED by what the snapshot found, or BAD_FRAME with FRAME_ERROR where the length is not the table's; one
command may give both moments, or one each with others between; until its end the frame stands open with what SDO has carried; and
it changes nothing else. A frame that comes where the port takes none, and one that resumes no frame of its own, change nothing
(the model's choice, log 6). The split into two commands is the model's (log 5). -/
def Obligations.ReadEntryFrames : Prop :=
  ∀ (t : Table) (f : FrameBits) (s : State),
    let entry := entryBytes s t (f.bytes.headD 0#8)
    let snap : Snapshot := { source := .readEntry t, data := entry.getD [], found := entry.isSome }
    let goesOn : Option Snapshot → List Byte → State := fun o data =>
      { s with
        out := { Outputs.quiet with sdo := some (shiftedOut s f 2 data) }
        mgmt := { s.mgmt with openFrame := some ⟨o, shiftedOut s f 2 data⟩ } }
    (frameReady s = true → f.ended = false → 8 ≤ f.bits.length →
      exec (.readEntry .opening t f) s = .next (goesOn (some snap) snap.data)) ∧
    (frameReady s = true → f.ended = false → f.bits.length < 8 →
      exec (.readEntry .opening t f) s = .next (goesOn none [])) ∧
    (frameReady s = false → exec (.readEntry .opening t f) s = .next { s with out := s.quietOut }) ∧
    (frameReady s = true → endsAt f 2 (3 + t.entrySize) →
      exec (.readEntry .opening t f) s =
        .next (afterFrame s f 2 (entry.getD []) (if entry.isSome then .done else .refused))) ∧
    (∀ o, s.phase = .running → openSnapshot s = some o → o.source = .readEntry t → f.ended = false →
      exec (.readEntry .resuming t f) s = .next (goesOn (some o) o.data)) ∧
    (∀ o, s.phase = .running → openSnapshot s = some o → o.source = .readEntry t → endsAt f 2 (3 + t.entrySize) →
      exec (.readEntry .resuming t f) s =
        .next (afterFrame s f 2 o.data (if o.found = true then .done else .refused))) ∧
    (∀ o, s.phase = .running → openSnapshot s = some o → o.source = .readEntry t → f.ended = true →
      f.edges 2 ≠ 8 * (3 + t.entrySize) →
      exec (.readEntry .resuming t f) s =
        .next { afterFrame s f 2 o.data .badFrame with
          events := { s.events with sticky := s.events.sticky ||| Sticky.frameError.bit } }) ∧
    (s.phase ≠ .running ∨ (∀ o, openSnapshot s = some o → o.source ≠ .readEntry t) →
      exec (.readEntry .resuming t f) s = .next { s with out := s.quietOut }) ∧
    (∀ b : Byte, (entryBytes s t b).isSome = true ↔ indexInRange t b) ∧
    (∀ d, entry = some d → d.length = t.entrySize)

/-- WRITE_GLOBAL: a passing entry at index 0 replaces the record, restarts the tick counter, takes LINE out and puts it back only
under LEVEL_LOW with the line low, and evaluates the global latch, in one event; any other is REFUSED and changes nothing.
(Latches: log 12.) -/
def Obligations.WriteGlobalFrame : Prop :=
  ∀ (f : FrameBits) (s : State), frameReady s = true → endsAt f 2 57 →
    let d := f.bytes.tail
    let g := globalOf d
    let line := g.quiesceMode == .levelLow && !s.pins.quiesceHigh
    let hold := latchesAfter { s with glob := g } true (fun _ => false) fun _ => false
    let atOnce := line && !s.drain.requested && decide (s.loads.liveCount = 0)
    (f.bytes.headD 0#8 = 0#8 → globalOk d = true →
      exec (.writeGlobal f) s =
        .next { afterFrame s f 2 [] .done with
          glob := g
          tickCounter := 0
          drain := { s.drain with
            line := line
            opState :=
              if s.drain.command || line then
                if s.drain.requested then s.drain.opState
                else if s.loads.liveCount = 0 then .drained else .draining
              else if s.drain.requested then .running else s.drain.opState }
          hold := hold
          events := { s.events with
            sticky := stickyWith (stickyWith s.events.sticky atOnce .drainDone) (heldMoves s hold) .holdChange } }) ∧
    (f.bytes.headD 0#8 ≠ 0#8 ∨ globalOk d = false →
      exec (.writeGlobal f) s = .next (afterFrame s f 2 [] .refused)) ∧
    (globalOk d = true → GlobalLegal g)

/-- WRITE_PORT: a passing entry at an index 0 to 5 replaces that port's record and evaluates its port and pace latches, with
HOLD_CHANGE if that moves HELD; any other is REFUSED and changes nothing. -/
def Obligations.WritePortFrame : Prop :=
  ∀ (f : FrameBits) (s : State), frameReady s = true → endsAt f 2 32 →
    let d := f.bytes.tail
    (∀ p : Fin 6, f.bytes.headD 0#8 = BitVec.ofNat 8 p.val → portOk d = true →
      let u := { s with portRec := s.portRec.set p (portOf d) }
      let hold := latchesAfter u false (fun q => q == p) fun q => q == p
      exec (.writePort f) s =
        .next { afterFrame s f 2 [] .done with
          portRec := s.portRec.set p (portOf d)
          hold := hold
          events := { s.events with
            sticky := stickyWith s.events.sticky (heldPorts s != heldPorts { u with hold := hold }) .holdChange } }) ∧
    (6 ≤ (f.bytes.headD 0#8).toNat ∨ portOk d = false →
      exec (.writePort f) s = .next (afterFrame s f 2 [] .refused)) ∧
    (portOk d = true → PortLegal (portOf d))

/-- WRITE_CLASS: a passing entry at an index 0 to 7, whose reservation with those of the other seven classes is at most 512,
replaces that class's record, sets its deficit to 0 and recomputes the shared figures; any other is REFUSED and changes nothing. -/
def Obligations.WriteClassFrame : Prop :=
  ∀ (f : FrameBits) (s : State), frameReady s = true → endsAt f 2 27 →
    let d := f.bytes.tail
    let r := classOf d
    (∀ k : Fin 8, f.bytes.headD 0#8 = BitVec.ofNat 8 k.val → classFieldsOk d = true →
      reservationSum (s.classRec.set k r) ≤ 512 →
      exec (.writeClass f) s =
        .next { afterFrame s f 2 [] .done with
          classRec := s.classRec.set k r
          sched := { s.sched with deficit := s.sched.deficit.set k 0 }
          loads := { s.loads with
            sharedLoad := sharedLoadOf s.loads.occ (s.classRec.set k r)
            sharedCapacity := 1024 - reservationSum (s.classRec.set k r) } }) ∧
    (∀ k : Fin 8, f.bytes.headD 0#8 = BitVec.ofNat 8 k.val →
      classFieldsOk d = false ∨ 512 < reservationSum (s.classRec.set k r) →
      exec (.writeClass f) s = .next (afterFrame s f 2 [] .refused)) ∧
    (8 ≤ (f.bytes.headD 0#8).toNat → exec (.writeClass f) s = .next (afterFrame s f 2 [] .refused)) ∧
    (classFieldsOk d = true → ClassLegal r)

/-- WRITE_METER and METER_LOAD: a passing entry at an index 0 to 15 replaces CIR, CBS and EBS, clips the tokens to the new sizes, or
fills both buckets with LOAD, and evaluates the pace latches of the meter where C fell or was filled; any other is REFUSED and
changes nothing.
The frame's own LOAD byte decides, under either row (the model's reading, log 16). -/
def Obligations.WriteMeterFrames : Prop :=
  ∀ (i : Instr) (f : FrameBits) (s : State), i = .writeMeter f ∨ i = .meterLoad f → frameReady s = true →
    endsAt f 2 18 →
    let d := f.bytes.tail
    let ok := numAt d 2 3 ≤ 262143 ∧ numAt d 5 3 ≤ 262143 ∧ (byteAt d 8 = 0x00#8 ∨ byteAt d 8 = 0x01#8)
    (∀ m : Fin 16, f.bytes.headD 0#8 = BitVec.ofNat 8 m.val → ok →
      let load := decide (byteAt d 8 = 0x01#8)
      let w : Meter :=
        { cir := numAt d 0 2, cbs := numAt d 2 3, ebs := numAt d 5 3,
          c := if load then numAt d 2 3 else min s.meters[m].c (numAt d 2 3),
          e := if load then numAt d 5 3 else min s.meters[m].e (numAt d 5 3) }
      let hold := latchesAfter { s with meters := s.meters.set m w } false (fun _ => false)
        fun q => (load || decide (numAt d 2 3 < s.meters[m].c)) && s.portRec[q].paceMeter == m
      exec i s =
        .next { afterFrame s f 2 [] .done with
          meters := s.meters.set m w
          hold := hold
          events := { s.events with sticky := stickyWith s.events.sticky (heldMoves s hold) .holdChange } }) ∧
    (16 ≤ (f.bytes.headD 0#8).toNat ∨ ¬ok → exec i s = .next (afterFrame s f 2 [] .refused))

/-- WRITE_RULE_PATTERN and WRITE_RULE_ACTION: a passing entry for a rule 0 to 47 of the EDIT bank replaces that half of that rule;
one for the ACTIVE bank, or out of range, or failing its check is REFUSED and changes nothing. -/
def Obligations.WriteRuleFrames : Prop :=
  ∀ (f : FrameBits) (s : State) (b : Fin 2) (i : Fin 48), frameReady s = true →
    let d := f.bytes.tail
    let idx : Byte := BitVec.ofNat 8 (128 * b.val + i.val)
    (endsAt f 2 19 →
      (f.bytes.headD 0#8 = idx → b ≠ s.activeBank → patternOk d = true →
        exec (.writeRulePattern f) s =
          .next { afterFrame s f 2 [] .done with
            rules := s.rules.set b (s.rules[b].set i { s.rules[b][i] with pattern := patternOf d }) }) ∧
      ((f.bytes.headD 0#8 = idx ∧ b = s.activeBank) ∨ 48 ≤ (f.bytes.headD 0#8).toNat % 128 ∨ patternOk d = false →
        exec (.writeRulePattern f) s = .next (afterFrame s f 2 [] .refused))) ∧
    (endsAt f 2 15 →
      (f.bytes.headD 0#8 = idx → b ≠ s.activeBank → actionOk d = true →
        exec (.writeRuleAction f) s =
          .next { afterFrame s f 2 [] .done with
            rules := s.rules.set b (s.rules[b].set i { s.rules[b][i] with action := actionOf d }) }) ∧
      ((f.bytes.headD 0#8 = idx ∧ b = s.activeBank) ∨ 48 ≤ (f.bytes.headD 0#8).toNat % 128 ∨ actionOk d = false →
        exec (.writeRuleAction f) s = .next (afterFrame s f 2 [] .refused)))

/-- WRITE_EVENT_MASK replaces the ten mask bits, and is REFUSED at another index or with a bit that names nothing; WRITE_ENTRY to
COUNTERS, TRACKER or STATUS is REFUSED whatever it carries. -/
def Obligations.WriteMaskAndReadOnly : Prop :=
  ∀ (f : FrameBits) (s : State), frameReady s = true →
    (endsAt f 2 5 → f.bytes.headD 0#8 = 0#8 → numAt f.bytes.tail 0 2 < 1024 →
      exec (.writeEventMask f) s =
        .next { afterFrame s f 2 [] .done with
          events := { s.events with mask := BitVec.ofNat 10 (numAt f.bytes.tail 0 2) } }) ∧
    (endsAt f 2 5 → f.bytes.headD 0#8 ≠ 0#8 ∨ 1024 ≤ numAt f.bytes.tail 0 2 →
      exec (.writeEventMask f) s = .next (afterFrame s f 2 [] .refused)) ∧
    (∀ t : ReadOnlyTable, endsAt f 2 (3 + t.table.entrySize) →
      exec (.writeEntry t f) s = .next (afterFrame s f 2 [] .refused))

/-- SWAP_BANKS exchanges the banks and leaves their contents; SET_SEED writes a seed that is not 0 and refuses 0; RECLAIM_TAGS turns
every ORPHAN tag FREE and leaves the others. -/
def Obligations.SwapSeedReclaim : Prop :=
  ∀ (f : FrameBits) (s : State), frameReady s = true →
    (endsAt f 1 3 →
      exec (.swapBanks f) s =
        .next { afterFrame s f 1 [] .done with activeBank := if s.activeBank = 0 then 1 else 0 }) ∧
    (endsAt f 1 5 → (byteAt f.bytes 2 ≠ 0#8 ∨ byteAt f.bytes 3 ≠ 0#8) →
      exec (.setSeed f) s =
        .next { afterFrame s f 1 [] .done with lottery := byteAt f.bytes 3 ++ byteAt f.bytes 2 }) ∧
    (endsAt f 1 5 → byteAt f.bytes 2 = 0#8 → byteAt f.bytes 3 = 0#8 →
      exec (.setSeed f) s = .next (afterFrame s f 1 [] .refused)) ∧
    (endsAt f 1 3 →
      exec (.reclaimTags f) s =
        .next { afterFrame s f 1 [] .done with
          tags := .ofFn fun t => if s.tags[t].isOrphan then .free else s.tags[t] })

/-- Table entries and capture records in bytes: each field of every entry, as read, stands at its offset with its code; the writable
bytes of a GLOBAL, PORT or CLASS entry that passes its check read back as they were written, as a whole rule entry does; and the
rules read as given after reset. -/
def Obligations.EntriesReadBack : Prop :=
  CodesAsGiven ∧
  (∀ s : State,
    (∃ e, entryBytes s .global 0#8 = some e ∧ GlobalLayout s e) ∧
    (∀ p : Fin 6, ∃ e, entryBytes s .port (BitVec.ofNat 8 p.val) = some e ∧ PortLayout s p e) ∧
    (∀ k : Fin 8, ∃ e, entryBytes s .cls (BitVec.ofNat 8 k.val) = some e ∧ ClassLayout s k e) ∧
    (∀ m : Fin 16, ∃ e, entryBytes s .meter (BitVec.ofNat 8 m.val) = some e ∧ MeterLayout s.meters[m] e) ∧
    (∀ (b : Fin 2) (i : Fin 48),
      (∃ e, entryBytes s .rulePattern (BitVec.ofNat 8 (128 * b.val + i.val)) = some e ∧
        PatternLayout s.rules[b][i].pattern e) ∧
      ∃ e, entryBytes s .ruleAction (BitVec.ofNat 8 (128 * b.val + i.val)) = some e ∧
        ActionLayout s.rules[b][i].action e) ∧
    (∀ g : Fin 24, ∃ e, entryBytes s .counters (BitVec.ofNat 8 g.val) = some e ∧ CountersLayout s g e) ∧
    (∀ t : Fin 32, ∃ e, entryBytes s .tracker (BitVec.ofNat 8 t.val) = some e ∧ TrackerLayout s.tags[t] e) ∧
    (∃ e, entryBytes s .status 0#8 = some e ∧ StatusLayout s e) ∧
    ∃ e, entryBytes s .eventMask 0#8 = some e ∧ e.length = 2 ∧ FieldAt e 0 2 s.events.mask.toNat) ∧
  (∀ c : CaptureRecord, CaptureLayout c (captureBytes c)) ∧
  (∀ (s : State) (d : List Byte), d.length = 54 → globalOk d = true →
    (globalBytes { s with glob := globalOf d }).take 46 = d.take 46) ∧
  (∀ (s : State) (p : Fin 6) (d : List Byte), d.length = 29 → portOk d = true →
    (portBytes { s with portRec := s.portRec.set p (portOf d) } p).take 24 = d.take 24) ∧
  (∀ (s : State) (k : Fin 8) (d : List Byte), d.length = 24 → classFieldsOk d = true →
    (classBytes { s with classRec := s.classRec.set k (classOf d) } k).take 20 = d.take 20) ∧
  (∀ d : List Byte, d.length = 16 → patternOk d = true → patternBytes (patternOf d) = d) ∧
  (∀ d : List Byte, d.length = 12 → actionOk d = true → actionBytes (actionOf d) = d) ∧
  patternBytes Pattern.reset = [0x00#8, 0x00#8, 0x00#8, 0x00#8, 0x01#8, 0x10#8] ++ List.replicate 10 0x00#8 ∧
  actionBytes Action.reset = List.replicate 12 0x00#8

/-- Serial bits make bytes in groups of eight from the start, the first bit of each the most significant, and a trailing partial byte
makes none; and the bits of a frame written for a well-formed command are read as that command, with every bit it carries. -/
def Obligations.FrameRoundTrip : Prop :=
  (∀ f : FrameBits, f.bytes.length = f.bits.length / 8 ∧
    ∀ n j, n < f.bytes.length → j < 8 → (f.bytes.getD n 0#8).getLsbD (7 - j) = f.bits.getD (8 * n + j) false) ∧
  ∀ (i : Instr) (F : FrameBits) (strap : Bool), i.wellFormed = true → encodeFrame i = some F →
    (∀ h f, i = .governorReset h f → h = strap) → decodeFrame strap F = i

/-! ### Invariants -/

/-- The invariants hold at reset. -/
def Obligations.InvariantsAtReset : Prop :=
  let s := State.reset
  LoadsAgree s ∧ LoadsBounded s ∧ TagSetsAgree s ∧ PlacesAgree s ∧ StoreAgrees s ∧ SlotsCarried s ∧ NoneRanOut s ∧
  MetersWithin s ∧ SettingsLegal s ∧ LotteryNonzero s ∧ DeficitsLegal s ∧ CapturesBounded s ∧ TickCounterBelow s ∧
  BypassLatchesOff s ∧ LatchesSettled s ∧ OpStateAgrees s ∧ ResetHeld s

/-- Every step keeps the load quantities equal to the sums over the live descriptors, within 64 descriptors and 1024 beats. -/
def Obligations.LoadsKept : Prop :=
  ∀ s t : State, LoadsAgree s → LoadsBounded s → step s = .next t → LoadsAgree t ∧ LoadsBounded t

/-- Every step keeps each initiator tag LIVE exactly while one live transaction has it, every descriptor where it belongs, no
descriptor with its count run out, the Write Data Store equal to the data of the live WRITEs, and each live WRITE's reference on its
own space.
Where descriptors and data stand is the model's layout (log 13, 15). -/
def Obligations.TagsPlacesAndStoreKept : Prop :=
  ∀ s t : State, TagSetsAgree s → PlacesAgree s → NoneRanOut s → StoreAgrees s → SlotsCarried s → step s = .next t →
    TagSetsAgree t ∧ PlacesAgree t ∧ NoneRanOut t ∧ StoreAgrees t ∧ SlotsCarried t

/-- Every step keeps every setting in its range and the reservations within 512 beats, every meter's tokens within its buckets, the
lottery register not 0, every deficit at most 79 and 0 where its queue is empty or its class not WEIGHTED, the Capture Queue at
sixteen records or fewer, and the tick counter below its period. -/
def Obligations.SettingsAndBoundsKept : Prop :=
  ∀ s t : State, SettingsLegal s → MetersWithin s → LotteryNonzero s → DeficitsLegal s → CapturesBounded s →
    TickCounterBelow s → step s = .next t →
    SettingsLegal t ∧ MetersWithin t ∧ LotteryNonzero t ∧ DeficitsLegal t ∧ CapturesBounded t ∧ TickCounterBelow t

/-- Every step keeps every latch OFF in BYPASS mode, and in ENFORCE mode in the state an evaluation would leave it in. -/
def Obligations.LatchesKept : Prop :=
  ∀ s t : State, SettingsLegal s → ResetHeld s → BypassLatchesOff s → LatchesSettled s → step s = .next t →
    BypassLatchesOff t ∧ LatchesSettled t

/-- Every step keeps the operating state in agreement with the drain request set and the count of live transactions, and a part
that is held in reset at its reset values.
That a reset lasts until its end is the model's reading (log 7). -/
def Obligations.DrainAndResetKept : Prop :=
  ∀ s t : State, ResetHeld s → OpStateAgrees s → step s = .next t → ResetHeld t ∧ OpStateAgrees t
end

