-- ==== Sys2Proof/Laws/State.lean ====
section
/-! SUPPORT. What each shared update leaves in each field of the state: one lemma a field, true by unfolding. A field that an
update changes by a computed amount has its lemma in Laws/Ops.lean. -/

namespace Sys2Proof.Machine

/-! ### `quiet` -/

@[simp] theorem quiet_phase (s : State) : (s.quiet).phase = s.phase := rfl
@[simp] theorem quiet_pins (s : State) : (s.quiet).pins = s.pins := rfl
@[simp] theorem quiet_ports (s : State) : (s.quiet).ports = s.ports := rfl
@[simp] theorem quiet_lastGranted (s : State) : (s.quiet).lastGranted = s.lastGranted := rfl
@[simp] theorem quiet_activeBank (s : State) : (s.quiet).activeBank = s.activeBank := rfl
@[simp] theorem quiet_rules (s : State) : (s.quiet).rules = s.rules := rfl
@[simp] theorem quiet_tickCounter (s : State) : (s.quiet).tickCounter = s.tickCounter := rfl
@[simp] theorem quiet_meters (s : State) : (s.quiet).meters = s.meters := rfl
@[simp] theorem quiet_portRec (s : State) : (s.quiet).portRec = s.portRec := rfl
@[simp] theorem quiet_classRec (s : State) : (s.quiet).classRec = s.classRec := rfl
@[simp] theorem quiet_glob (s : State) : (s.quiet).glob = s.glob := rfl
@[simp] theorem quiet_loads (s : State) : (s.quiet).loads = s.loads := rfl
@[simp] theorem quiet_writeStore (s : State) : (s.quiet).writeStore = s.writeStore := rfl
@[simp] theorem quiet_lottery (s : State) : (s.quiet).lottery = s.lottery := rfl
@[simp] theorem quiet_hold (s : State) : (s.quiet).hold = s.hold := rfl
@[simp] theorem quiet_drain (s : State) : (s.quiet).drain = s.drain := rfl
@[simp] theorem quiet_queues (s : State) : (s.quiet).queues = s.queues := rfl
@[simp] theorem quiet_sched (s : State) : (s.quiet).sched = s.sched := rfl
@[simp] theorem quiet_tags (s : State) : (s.quiet).tags = s.tags := rfl
@[simp] theorem quiet_counters (s : State) : (s.quiet).counters = s.counters := rfl
@[simp] theorem quiet_captures (s : State) : (s.quiet).captures = s.captures := rfl
@[simp] theorem quiet_events (s : State) : (s.quiet).events = s.events := rfl
@[simp] theorem quiet_cause (s : State) : (s.quiet).cause = s.cause := rfl
@[simp] theorem quiet_mgmt (s : State) : (s.quiet).mgmt = s.mgmt := rfl
@[simp] theorem quiet_out (s : State) : (s.quiet).out = s.quietOut := rfl
@[simp] theorem quiet_pending (s : State) : (s.quiet).pending = s.pending := rfl

/-! ### `withFront` -/

@[simp] theorem withFront_phase (s : State) (c : Instr) : (s.withFront c).phase = s.phase := rfl
@[simp] theorem withFront_pins (s : State) (c : Instr) : (s.withFront c).pins = s.pins := rfl
@[simp] theorem withFront_ports (s : State) (c : Instr) : (s.withFront c).ports = s.ports := rfl
@[simp] theorem withFront_lastGranted (s : State) (c : Instr) : (s.withFront c).lastGranted = s.lastGranted := rfl
@[simp] theorem withFront_activeBank (s : State) (c : Instr) : (s.withFront c).activeBank = s.activeBank := rfl
@[simp] theorem withFront_rules (s : State) (c : Instr) : (s.withFront c).rules = s.rules := rfl
@[simp] theorem withFront_tickCounter (s : State) (c : Instr) : (s.withFront c).tickCounter = s.tickCounter := rfl
@[simp] theorem withFront_meters (s : State) (c : Instr) : (s.withFront c).meters = s.meters := rfl
@[simp] theorem withFront_portRec (s : State) (c : Instr) : (s.withFront c).portRec = s.portRec := rfl
@[simp] theorem withFront_classRec (s : State) (c : Instr) : (s.withFront c).classRec = s.classRec := rfl
@[simp] theorem withFront_glob (s : State) (c : Instr) : (s.withFront c).glob = s.glob := rfl
@[simp] theorem withFront_loads (s : State) (c : Instr) : (s.withFront c).loads = s.loads := rfl
@[simp] theorem withFront_writeStore (s : State) (c : Instr) : (s.withFront c).writeStore = s.writeStore := rfl
@[simp] theorem withFront_lottery (s : State) (c : Instr) : (s.withFront c).lottery = s.lottery := rfl
@[simp] theorem withFront_hold (s : State) (c : Instr) : (s.withFront c).hold = s.hold := rfl
@[simp] theorem withFront_drain (s : State) (c : Instr) : (s.withFront c).drain = s.drain := rfl
@[simp] theorem withFront_queues (s : State) (c : Instr) : (s.withFront c).queues = s.queues := rfl
@[simp] theorem withFront_sched (s : State) (c : Instr) : (s.withFront c).sched = s.sched := rfl
@[simp] theorem withFront_tags (s : State) (c : Instr) : (s.withFront c).tags = s.tags := rfl
@[simp] theorem withFront_counters (s : State) (c : Instr) : (s.withFront c).counters = s.counters := rfl
@[simp] theorem withFront_captures (s : State) (c : Instr) : (s.withFront c).captures = s.captures := rfl
@[simp] theorem withFront_events (s : State) (c : Instr) : (s.withFront c).events = s.events := rfl
@[simp] theorem withFront_cause (s : State) (c : Instr) : (s.withFront c).cause = s.cause := rfl
@[simp] theorem withFront_mgmt (s : State) (c : Instr) : (s.withFront c).mgmt = s.mgmt := rfl
@[simp] theorem withFront_out (s : State) (c : Instr) : (s.withFront c).out = s.out := rfl
@[simp] theorem withFront_pending (s : State) (c : Instr) : (s.withFront c).pending = c :: s.pending := rfl

/-! ### `raiseIf` -/

@[simp] theorem raiseIf_phase (s : State) (b : Bool) (e : Sticky) : (s.raiseIf b e).phase = s.phase := rfl
@[simp] theorem raiseIf_pins (s : State) (b : Bool) (e : Sticky) : (s.raiseIf b e).pins = s.pins := rfl
@[simp] theorem raiseIf_ports (s : State) (b : Bool) (e : Sticky) : (s.raiseIf b e).ports = s.ports := rfl
@[simp] theorem raiseIf_lastGranted (s : State) (b : Bool) (e : Sticky) :
    (s.raiseIf b e).lastGranted =
      s.lastGranted := rfl
@[simp] theorem raiseIf_activeBank (s : State) (b : Bool) (e : Sticky) :
    (s.raiseIf b e).activeBank =
      s.activeBank := rfl
@[simp] theorem raiseIf_rules (s : State) (b : Bool) (e : Sticky) : (s.raiseIf b e).rules = s.rules := rfl
@[simp] theorem raiseIf_tickCounter (s : State) (b : Bool) (e : Sticky) :
    (s.raiseIf b e).tickCounter =
      s.tickCounter := rfl
@[simp] theorem raiseIf_meters (s : State) (b : Bool) (e : Sticky) : (s.raiseIf b e).meters = s.meters := rfl
@[simp] theorem raiseIf_portRec (s : State) (b : Bool) (e : Sticky) : (s.raiseIf b e).portRec = s.portRec := rfl
@[simp] theorem raiseIf_classRec (s : State) (b : Bool) (e : Sticky) : (s.raiseIf b e).classRec = s.classRec := rfl
@[simp] theorem raiseIf_glob (s : State) (b : Bool) (e : Sticky) : (s.raiseIf b e).glob = s.glob := rfl
@[simp] theorem raiseIf_loads (s : State) (b : Bool) (e : Sticky) : (s.raiseIf b e).loads = s.loads := rfl
@[simp] theorem raiseIf_writeStore (s : State) (b : Bool) (e : Sticky) :
    (s.raiseIf b e).writeStore =
      s.writeStore := rfl
@[simp] theorem raiseIf_lottery (s : State) (b : Bool) (e : Sticky) : (s.raiseIf b e).lottery = s.lottery := rfl
@[simp] theorem raiseIf_hold (s : State) (b : Bool) (e : Sticky) : (s.raiseIf b e).hold = s.hold := rfl
@[simp] theorem raiseIf_drain (s : State) (b : Bool) (e : Sticky) : (s.raiseIf b e).drain = s.drain := rfl
@[simp] theorem raiseIf_queues (s : State) (b : Bool) (e : Sticky) : (s.raiseIf b e).queues = s.queues := rfl
@[simp] theorem raiseIf_sched (s : State) (b : Bool) (e : Sticky) : (s.raiseIf b e).sched = s.sched := rfl
@[simp] theorem raiseIf_tags (s : State) (b : Bool) (e : Sticky) : (s.raiseIf b e).tags = s.tags := rfl
@[simp] theorem raiseIf_counters (s : State) (b : Bool) (e : Sticky) : (s.raiseIf b e).counters = s.counters := rfl
@[simp] theorem raiseIf_captures (s : State) (b : Bool) (e : Sticky) : (s.raiseIf b e).captures = s.captures := rfl
@[simp] theorem raiseIf_events (s : State) (b : Bool) (e : Sticky) :
    (s.raiseIf b e).events =
      { s.events with sticky := stickyWith s.events.sticky b e } := rfl
@[simp] theorem raiseIf_cause (s : State) (b : Bool) (e : Sticky) : (s.raiseIf b e).cause = s.cause := rfl
@[simp] theorem raiseIf_mgmt (s : State) (b : Bool) (e : Sticky) : (s.raiseIf b e).mgmt = s.mgmt := rfl
@[simp] theorem raiseIf_out (s : State) (b : Bool) (e : Sticky) : (s.raiseIf b e).out = s.out := rfl
@[simp] theorem raiseIf_pending (s : State) (b : Bool) (e : Sticky) : (s.raiseIf b e).pending = s.pending := rfl

/-! ### `count` -/

@[simp] theorem count_phase (s : State) (g : Fin 24) (c : Counter) (n : Nat) : (count s g c n).phase = s.phase := rfl
@[simp] theorem count_pins (s : State) (g : Fin 24) (c : Counter) (n : Nat) : (count s g c n).pins = s.pins := rfl
@[simp] theorem count_ports (s : State) (g : Fin 24) (c : Counter) (n : Nat) : (count s g c n).ports = s.ports := rfl
@[simp] theorem count_lastGranted (s : State) (g : Fin 24) (c : Counter) (n : Nat) :
    (count s g c n).lastGranted =
      s.lastGranted := rfl
@[simp] theorem count_activeBank (s : State) (g : Fin 24) (c : Counter) (n : Nat) :
    (count s g c n).activeBank =
      s.activeBank := rfl
@[simp] theorem count_rules (s : State) (g : Fin 24) (c : Counter) (n : Nat) : (count s g c n).rules = s.rules := rfl
@[simp] theorem count_tickCounter (s : State) (g : Fin 24) (c : Counter) (n : Nat) :
    (count s g c n).tickCounter =
      s.tickCounter := rfl
@[simp] theorem count_meters (s : State) (g : Fin 24) (c : Counter) (n : Nat) : (count s g c n).meters = s.meters := rfl
@[simp] theorem count_portRec (s : State) (g : Fin 24) (c : Counter) (n : Nat) :
    (count s g c n).portRec =
      s.portRec := rfl
@[simp] theorem count_classRec (s : State) (g : Fin 24) (c : Counter) (n : Nat) :
    (count s g c n).classRec =
      s.classRec := rfl
@[simp] theorem count_glob (s : State) (g : Fin 24) (c : Counter) (n : Nat) : (count s g c n).glob = s.glob := rfl
@[simp] theorem count_loads (s : State) (g : Fin 24) (c : Counter) (n : Nat) : (count s g c n).loads = s.loads := rfl
@[simp] theorem count_writeStore (s : State) (g : Fin 24) (c : Counter) (n : Nat) :
    (count s g c n).writeStore =
      s.writeStore := rfl
@[simp] theorem count_lottery (s : State) (g : Fin 24) (c : Counter) (n : Nat) :
    (count s g c n).lottery =
      s.lottery := rfl
@[simp] theorem count_hold (s : State) (g : Fin 24) (c : Counter) (n : Nat) : (count s g c n).hold = s.hold := rfl
@[simp] theorem count_drain (s : State) (g : Fin 24) (c : Counter) (n : Nat) : (count s g c n).drain = s.drain := rfl
@[simp] theorem count_queues (s : State) (g : Fin 24) (c : Counter) (n : Nat) : (count s g c n).queues = s.queues := rfl
@[simp] theorem count_sched (s : State) (g : Fin 24) (c : Counter) (n : Nat) : (count s g c n).sched = s.sched := rfl
@[simp] theorem count_tags (s : State) (g : Fin 24) (c : Counter) (n : Nat) : (count s g c n).tags = s.tags := rfl
@[simp] theorem count_captures (s : State) (g : Fin 24) (c : Counter) (n : Nat) :
    (count s g c n).captures =
      s.captures := rfl
@[simp] theorem count_cause (s : State) (g : Fin 24) (c : Counter) (n : Nat) : (count s g c n).cause = s.cause := rfl
@[simp] theorem count_mgmt (s : State) (g : Fin 24) (c : Counter) (n : Nat) : (count s g c n).mgmt = s.mgmt := rfl
@[simp] theorem count_out (s : State) (g : Fin 24) (c : Counter) (n : Nat) : (count s g c n).out = s.out := rfl
@[simp] theorem count_pending (s : State) (g : Fin 24) (c : Counter) (n : Nat) :
    (count s g c n).pending =
      s.pending := rfl

/-! ### `respond` -/

@[simp] theorem respond_phase (s : State) (p : Fin 6) (r : Response) : (respond s p r).phase = s.phase := rfl
@[simp] theorem respond_pins (s : State) (p : Fin 6) (r : Response) : (respond s p r).pins = s.pins := rfl
@[simp] theorem respond_ports (s : State) (p : Fin 6) (r : Response) : (respond s p r).ports = s.ports := rfl
@[simp] theorem respond_lastGranted (s : State) (p : Fin 6) (r : Response) :
    (respond s p r).lastGranted =
      s.lastGranted := rfl
@[simp] theorem respond_activeBank (s : State) (p : Fin 6) (r : Response) :
    (respond s p r).activeBank =
      s.activeBank := rfl
@[simp] theorem respond_rules (s : State) (p : Fin 6) (r : Response) : (respond s p r).rules = s.rules := rfl
@[simp] theorem respond_tickCounter (s : State) (p : Fin 6) (r : Response) :
    (respond s p r).tickCounter =
      s.tickCounter := rfl
@[simp] theorem respond_meters (s : State) (p : Fin 6) (r : Response) : (respond s p r).meters = s.meters := rfl
@[simp] theorem respond_portRec (s : State) (p : Fin 6) (r : Response) : (respond s p r).portRec = s.portRec := rfl
@[simp] theorem respond_classRec (s : State) (p : Fin 6) (r : Response) : (respond s p r).classRec = s.classRec := rfl
@[simp] theorem respond_glob (s : State) (p : Fin 6) (r : Response) : (respond s p r).glob = s.glob := rfl
@[simp] theorem respond_loads (s : State) (p : Fin 6) (r : Response) : (respond s p r).loads = s.loads := rfl
@[simp] theorem respond_writeStore (s : State) (p : Fin 6) (r : Response) :
    (respond s p r).writeStore =
      s.writeStore := rfl
@[simp] theorem respond_lottery (s : State) (p : Fin 6) (r : Response) : (respond s p r).lottery = s.lottery := rfl
@[simp] theorem respond_hold (s : State) (p : Fin 6) (r : Response) : (respond s p r).hold = s.hold := rfl
@[simp] theorem respond_drain (s : State) (p : Fin 6) (r : Response) : (respond s p r).drain = s.drain := rfl
@[simp] theorem respond_queues (s : State) (p : Fin 6) (r : Response) : (respond s p r).queues = s.queues := rfl
@[simp] theorem respond_sched (s : State) (p : Fin 6) (r : Response) : (respond s p r).sched = s.sched := rfl
@[simp] theorem respond_tags (s : State) (p : Fin 6) (r : Response) : (respond s p r).tags = s.tags := rfl
@[simp] theorem respond_counters (s : State) (p : Fin 6) (r : Response) : (respond s p r).counters = s.counters := rfl
@[simp] theorem respond_captures (s : State) (p : Fin 6) (r : Response) : (respond s p r).captures = s.captures := rfl
@[simp] theorem respond_events (s : State) (p : Fin 6) (r : Response) : (respond s p r).events = s.events := rfl
@[simp] theorem respond_cause (s : State) (p : Fin 6) (r : Response) : (respond s p r).cause = s.cause := rfl
@[simp] theorem respond_mgmt (s : State) (p : Fin 6) (r : Response) : (respond s p r).mgmt = s.mgmt := rfl
@[simp] theorem respond_out (s : State) (p : Fin 6) (r : Response) :
    (respond s p r).out =
      { s.out with responses := s.out.responses.set p (s.out.responses[p] ++ [r]) } := rfl
@[simp] theorem respond_pending (s : State) (p : Fin 6) (r : Response) : (respond s p r).pending = s.pending := rfl

/-! ### `respondAll` -/

@[simp] theorem respondAll_phase (s : State) (ds : List Descriptor) (c : RespCode) :
    (respondAll s ds c).phase =
      s.phase := rfl
@[simp] theorem respondAll_pins (s : State) (ds : List Descriptor) (c : RespCode) :
    (respondAll s ds c).pins =
      s.pins := rfl
@[simp] theorem respondAll_ports (s : State) (ds : List Descriptor) (c : RespCode) :
    (respondAll s ds c).ports =
      s.ports := rfl
@[simp] theorem respondAll_lastGranted (s : State) (ds : List Descriptor) (c : RespCode) :
    (respondAll s ds c).lastGranted =
      s.lastGranted := rfl
@[simp] theorem respondAll_activeBank (s : State) (ds : List Descriptor) (c : RespCode) :
    (respondAll s ds c).activeBank =
      s.activeBank := rfl
@[simp] theorem respondAll_rules (s : State) (ds : List Descriptor) (c : RespCode) :
    (respondAll s ds c).rules =
      s.rules := rfl
@[simp] theorem respondAll_tickCounter (s : State) (ds : List Descriptor) (c : RespCode) :
    (respondAll s ds c).tickCounter =
      s.tickCounter := rfl
@[simp] theorem respondAll_meters (s : State) (ds : List Descriptor) (c : RespCode) :
    (respondAll s ds c).meters =
      s.meters := rfl
@[simp] theorem respondAll_portRec (s : State) (ds : List Descriptor) (c : RespCode) :
    (respondAll s ds c).portRec =
      s.portRec := rfl
@[simp] theorem respondAll_classRec (s : State) (ds : List Descriptor) (c : RespCode) :
    (respondAll s ds c).classRec =
      s.classRec := rfl
@[simp] theorem respondAll_glob (s : State) (ds : List Descriptor) (c : RespCode) :
    (respondAll s ds c).glob =
      s.glob := rfl
@[simp] theorem respondAll_loads (s : State) (ds : List Descriptor) (c : RespCode) :
    (respondAll s ds c).loads =
      s.loads := rfl
@[simp] theorem respondAll_writeStore (s : State) (ds : List Descriptor) (c : RespCode) :
    (respondAll s ds c).writeStore =
      s.writeStore := rfl
@[simp] theorem respondAll_lottery (s : State) (ds : List Descriptor) (c : RespCode) :
    (respondAll s ds c).lottery =
      s.lottery := rfl
@[simp] theorem respondAll_hold (s : State) (ds : List Descriptor) (c : RespCode) :
    (respondAll s ds c).hold =
      s.hold := rfl
@[simp] theorem respondAll_drain (s : State) (ds : List Descriptor) (c : RespCode) :
    (respondAll s ds c).drain =
      s.drain := rfl
@[simp] theorem respondAll_queues (s : State) (ds : List Descriptor) (c : RespCode) :
    (respondAll s ds c).queues =
      s.queues := rfl
@[simp] theorem respondAll_sched (s : State) (ds : List Descriptor) (c : RespCode) :
    (respondAll s ds c).sched =
      s.sched := rfl
@[simp] theorem respondAll_tags (s : State) (ds : List Descriptor) (c : RespCode) :
    (respondAll s ds c).tags =
      s.tags := rfl
@[simp] theorem respondAll_counters (s : State) (ds : List Descriptor) (c : RespCode) :
    (respondAll s ds c).counters =
      s.counters := rfl
@[simp] theorem respondAll_captures (s : State) (ds : List Descriptor) (c : RespCode) :
    (respondAll s ds c).captures =
      s.captures := rfl
@[simp] theorem respondAll_events (s : State) (ds : List Descriptor) (c : RespCode) :
    (respondAll s ds c).events =
      s.events := rfl
@[simp] theorem respondAll_cause (s : State) (ds : List Descriptor) (c : RespCode) :
    (respondAll s ds c).cause =
      s.cause := rfl
@[simp] theorem respondAll_mgmt (s : State) (ds : List Descriptor) (c : RespCode) :
    (respondAll s ds c).mgmt =
      s.mgmt := rfl
@[simp] theorem respondAll_out (s : State) (ds : List Descriptor) (c : RespCode) :
    (respondAll s ds c).out =
      { s.out with responses := .ofFn fun p => s.out.responses[p] ++ runOfResponses ds c p } := rfl
@[simp] theorem respondAll_pending (s : State) (ds : List Descriptor) (c : RespCode) :
    (respondAll s ds c).pending =
      s.pending := rfl

/-! ### `evalLatches` -/

@[simp] theorem evalLatches_phase (s : State) (g : Bool) (pp pc : Fin 6 → Bool) :
    (evalLatches s g pp pc).phase =
      s.phase := rfl
@[simp] theorem evalLatches_pins (s : State) (g : Bool) (pp pc : Fin 6 → Bool) :
    (evalLatches s g pp pc).pins =
      s.pins := rfl
@[simp] theorem evalLatches_ports (s : State) (g : Bool) (pp pc : Fin 6 → Bool) :
    (evalLatches s g pp pc).ports =
      s.ports := rfl
@[simp] theorem evalLatches_lastGranted (s : State) (g : Bool) (pp pc : Fin 6 → Bool) :
    (evalLatches s g pp pc).lastGranted =
      s.lastGranted := rfl
@[simp] theorem evalLatches_activeBank (s : State) (g : Bool) (pp pc : Fin 6 → Bool) :
    (evalLatches s g pp pc).activeBank =
      s.activeBank := rfl
@[simp] theorem evalLatches_rules (s : State) (g : Bool) (pp pc : Fin 6 → Bool) :
    (evalLatches s g pp pc).rules =
      s.rules := rfl
@[simp] theorem evalLatches_tickCounter (s : State) (g : Bool) (pp pc : Fin 6 → Bool) :
    (evalLatches s g pp pc).tickCounter =
      s.tickCounter := rfl
@[simp] theorem evalLatches_meters (s : State) (g : Bool) (pp pc : Fin 6 → Bool) :
    (evalLatches s g pp pc).meters =
      s.meters := rfl
@[simp] theorem evalLatches_portRec (s : State) (g : Bool) (pp pc : Fin 6 → Bool) :
    (evalLatches s g pp pc).portRec =
      s.portRec := rfl
@[simp] theorem evalLatches_classRec (s : State) (g : Bool) (pp pc : Fin 6 → Bool) :
    (evalLatches s g pp pc).classRec =
      s.classRec := rfl
@[simp] theorem evalLatches_glob (s : State) (g : Bool) (pp pc : Fin 6 → Bool) :
    (evalLatches s g pp pc).glob =
      s.glob := rfl
@[simp] theorem evalLatches_loads (s : State) (g : Bool) (pp pc : Fin 6 → Bool) :
    (evalLatches s g pp pc).loads =
      s.loads := rfl
@[simp] theorem evalLatches_writeStore (s : State) (g : Bool) (pp pc : Fin 6 → Bool) :
    (evalLatches s g pp pc).writeStore =
      s.writeStore := rfl
@[simp] theorem evalLatches_lottery (s : State) (g : Bool) (pp pc : Fin 6 → Bool) :
    (evalLatches s g pp pc).lottery =
      s.lottery := rfl
@[simp] theorem evalLatches_hold (s : State) (g : Bool) (pp pc : Fin 6 → Bool) :
    (evalLatches s g pp pc).hold =
      latchesAfter s g pp pc := rfl
@[simp] theorem evalLatches_drain (s : State) (g : Bool) (pp pc : Fin 6 → Bool) :
    (evalLatches s g pp pc).drain =
      s.drain := rfl
@[simp] theorem evalLatches_queues (s : State) (g : Bool) (pp pc : Fin 6 → Bool) :
    (evalLatches s g pp pc).queues =
      s.queues := rfl
@[simp] theorem evalLatches_sched (s : State) (g : Bool) (pp pc : Fin 6 → Bool) :
    (evalLatches s g pp pc).sched =
      s.sched := rfl
@[simp] theorem evalLatches_tags (s : State) (g : Bool) (pp pc : Fin 6 → Bool) :
    (evalLatches s g pp pc).tags =
      s.tags := rfl
@[simp] theorem evalLatches_counters (s : State) (g : Bool) (pp pc : Fin 6 → Bool) :
    (evalLatches s g pp pc).counters =
      s.counters := rfl
@[simp] theorem evalLatches_captures (s : State) (g : Bool) (pp pc : Fin 6 → Bool) :
    (evalLatches s g pp pc).captures =
      s.captures := rfl
@[simp] theorem evalLatches_events (s : State) (g : Bool) (pp pc : Fin 6 → Bool) :
    (evalLatches s g pp pc).events =
      s.events := rfl
@[simp] theorem evalLatches_cause (s : State) (g : Bool) (pp pc : Fin 6 → Bool) :
    (evalLatches s g pp pc).cause =
      s.cause := rfl
@[simp] theorem evalLatches_mgmt (s : State) (g : Bool) (pp pc : Fin 6 → Bool) :
    (evalLatches s g pp pc).mgmt =
      s.mgmt := rfl
@[simp] theorem evalLatches_out (s : State) (g : Bool) (pp pc : Fin 6 → Bool) :
    (evalLatches s g pp pc).out =
      s.out := rfl
@[simp] theorem evalLatches_pending (s : State) (g : Bool) (pp pc : Fin 6 → Bool) :
    (evalLatches s g pp pc).pending =
      s.pending := rfl

/-! ### `setRequests` -/

@[simp] theorem setRequests_phase (s : State) (c l : Bool) : (setRequests s c l).phase = s.phase := rfl
@[simp] theorem setRequests_pins (s : State) (c l : Bool) : (setRequests s c l).pins = s.pins := rfl
@[simp] theorem setRequests_ports (s : State) (c l : Bool) : (setRequests s c l).ports = s.ports := rfl
@[simp] theorem setRequests_lastGranted (s : State) (c l : Bool) :
    (setRequests s c l).lastGranted =
      s.lastGranted := rfl
@[simp] theorem setRequests_activeBank (s : State) (c l : Bool) : (setRequests s c l).activeBank = s.activeBank := rfl
@[simp] theorem setRequests_rules (s : State) (c l : Bool) : (setRequests s c l).rules = s.rules := rfl
@[simp] theorem setRequests_tickCounter (s : State) (c l : Bool) :
    (setRequests s c l).tickCounter =
      s.tickCounter := rfl
@[simp] theorem setRequests_meters (s : State) (c l : Bool) : (setRequests s c l).meters = s.meters := rfl
@[simp] theorem setRequests_portRec (s : State) (c l : Bool) : (setRequests s c l).portRec = s.portRec := rfl
@[simp] theorem setRequests_classRec (s : State) (c l : Bool) : (setRequests s c l).classRec = s.classRec := rfl
@[simp] theorem setRequests_glob (s : State) (c l : Bool) : (setRequests s c l).glob = s.glob := rfl
@[simp] theorem setRequests_loads (s : State) (c l : Bool) : (setRequests s c l).loads = s.loads := rfl
@[simp] theorem setRequests_writeStore (s : State) (c l : Bool) : (setRequests s c l).writeStore = s.writeStore := rfl
@[simp] theorem setRequests_lottery (s : State) (c l : Bool) : (setRequests s c l).lottery = s.lottery := rfl
@[simp] theorem setRequests_hold (s : State) (c l : Bool) : (setRequests s c l).hold = s.hold := rfl
@[simp] theorem setRequests_drain (s : State) (c l : Bool) :
    (setRequests s c l).drain =
      { s.drain with opState := opStateWith s.drain s.loads.liveCount c l, command := c, line := l } := rfl
@[simp] theorem setRequests_queues (s : State) (c l : Bool) : (setRequests s c l).queues = s.queues := rfl
@[simp] theorem setRequests_sched (s : State) (c l : Bool) : (setRequests s c l).sched = s.sched := rfl
@[simp] theorem setRequests_tags (s : State) (c l : Bool) : (setRequests s c l).tags = s.tags := rfl
@[simp] theorem setRequests_counters (s : State) (c l : Bool) : (setRequests s c l).counters = s.counters := rfl
@[simp] theorem setRequests_captures (s : State) (c l : Bool) : (setRequests s c l).captures = s.captures := rfl
@[simp] theorem setRequests_cause (s : State) (c l : Bool) : (setRequests s c l).cause = s.cause := rfl
@[simp] theorem setRequests_mgmt (s : State) (c l : Bool) : (setRequests s c l).mgmt = s.mgmt := rfl
@[simp] theorem setRequests_out (s : State) (c l : Bool) : (setRequests s c l).out = s.out := rfl
@[simp] theorem setRequests_pending (s : State) (c l : Bool) : (setRequests s c l).pending = s.pending := rfl

/-! ### `endDrain` -/

@[simp] theorem endDrain_phase (s : State) : (endDrain s).phase = s.phase := rfl
@[simp] theorem endDrain_pins (s : State) : (endDrain s).pins = s.pins := rfl
@[simp] theorem endDrain_ports (s : State) : (endDrain s).ports = s.ports := rfl
@[simp] theorem endDrain_lastGranted (s : State) : (endDrain s).lastGranted = s.lastGranted := rfl
@[simp] theorem endDrain_activeBank (s : State) : (endDrain s).activeBank = s.activeBank := rfl
@[simp] theorem endDrain_rules (s : State) : (endDrain s).rules = s.rules := rfl
@[simp] theorem endDrain_tickCounter (s : State) : (endDrain s).tickCounter = s.tickCounter := rfl
@[simp] theorem endDrain_meters (s : State) : (endDrain s).meters = s.meters := rfl
@[simp] theorem endDrain_portRec (s : State) : (endDrain s).portRec = s.portRec := rfl
@[simp] theorem endDrain_classRec (s : State) : (endDrain s).classRec = s.classRec := rfl
@[simp] theorem endDrain_glob (s : State) : (endDrain s).glob = s.glob := rfl
@[simp] theorem endDrain_loads (s : State) : (endDrain s).loads = s.loads := rfl
@[simp] theorem endDrain_writeStore (s : State) : (endDrain s).writeStore = s.writeStore := rfl
@[simp] theorem endDrain_lottery (s : State) : (endDrain s).lottery = s.lottery := rfl
@[simp] theorem endDrain_hold (s : State) : (endDrain s).hold = s.hold := rfl
@[simp] theorem endDrain_drain (s : State) :
    (endDrain s).drain =
      { s.drain with opState := if drainComplete s then .drained else s.drain.opState } := rfl
@[simp] theorem endDrain_queues (s : State) : (endDrain s).queues = s.queues := rfl
@[simp] theorem endDrain_sched (s : State) : (endDrain s).sched = s.sched := rfl
@[simp] theorem endDrain_tags (s : State) : (endDrain s).tags = s.tags := rfl
@[simp] theorem endDrain_counters (s : State) : (endDrain s).counters = s.counters := rfl
@[simp] theorem endDrain_captures (s : State) : (endDrain s).captures = s.captures := rfl
@[simp] theorem endDrain_events (s : State) :
    (endDrain s).events =
      { s.events with sticky := stickyWith s.events.sticky (drainComplete s) .drainDone } := rfl
@[simp] theorem endDrain_cause (s : State) : (endDrain s).cause = s.cause := rfl
@[simp] theorem endDrain_mgmt (s : State) : (endDrain s).mgmt = s.mgmt := rfl
@[simp] theorem endDrain_out (s : State) : (endDrain s).out = s.out := rfl
@[simp] theorem endDrain_pending (s : State) : (endDrain s).pending = s.pending := rfl

/-! ### `freeDescriptors` -/

@[simp] theorem freeDescriptors_phase (s : State) (ds : List Descriptor) : (freeDescriptors s ds).phase = s.phase := rfl
@[simp] theorem freeDescriptors_pins (s : State) (ds : List Descriptor) : (freeDescriptors s ds).pins = s.pins := rfl
@[simp] theorem freeDescriptors_lastGranted (s : State) (ds : List Descriptor) :
    (freeDescriptors s ds).lastGranted =
      s.lastGranted := rfl
@[simp] theorem freeDescriptors_activeBank (s : State) (ds : List Descriptor) :
    (freeDescriptors s ds).activeBank =
      s.activeBank := rfl
@[simp] theorem freeDescriptors_rules (s : State) (ds : List Descriptor) : (freeDescriptors s ds).rules = s.rules := rfl
@[simp] theorem freeDescriptors_tickCounter (s : State) (ds : List Descriptor) :
    (freeDescriptors s ds).tickCounter =
      s.tickCounter := rfl
@[simp] theorem freeDescriptors_meters (s : State) (ds : List Descriptor) :
    (freeDescriptors s ds).meters =
      s.meters := rfl
@[simp] theorem freeDescriptors_portRec (s : State) (ds : List Descriptor) :
    (freeDescriptors s ds).portRec =
      s.portRec := rfl
@[simp] theorem freeDescriptors_classRec (s : State) (ds : List Descriptor) :
    (freeDescriptors s ds).classRec =
      s.classRec := rfl
@[simp] theorem freeDescriptors_glob (s : State) (ds : List Descriptor) : (freeDescriptors s ds).glob = s.glob := rfl
@[simp] theorem freeDescriptors_loads (s : State) (ds : List Descriptor) :
    (freeDescriptors s ds).loads =
      s.loads.free s.classRec ds := rfl
@[simp] theorem freeDescriptors_writeStore (s : State) (ds : List Descriptor) :
    (freeDescriptors s ds).writeStore =
      s.writeStore.filter fun w => !names ds w.port w.tag := rfl
@[simp] theorem freeDescriptors_lottery (s : State) (ds : List Descriptor) :
    (freeDescriptors s ds).lottery =
      s.lottery := rfl
@[simp] theorem freeDescriptors_hold (s : State) (ds : List Descriptor) : (freeDescriptors s ds).hold = s.hold := rfl
@[simp] theorem freeDescriptors_drain (s : State) (ds : List Descriptor) : (freeDescriptors s ds).drain = s.drain := rfl
@[simp] theorem freeDescriptors_queues (s : State) (ds : List Descriptor) :
    (freeDescriptors s ds).queues =
      s.queues := rfl
@[simp] theorem freeDescriptors_sched (s : State) (ds : List Descriptor) : (freeDescriptors s ds).sched = s.sched := rfl
@[simp] theorem freeDescriptors_tags (s : State) (ds : List Descriptor) : (freeDescriptors s ds).tags = s.tags := rfl
@[simp] theorem freeDescriptors_counters (s : State) (ds : List Descriptor) :
    (freeDescriptors s ds).counters =
      s.counters := rfl
@[simp] theorem freeDescriptors_captures (s : State) (ds : List Descriptor) :
    (freeDescriptors s ds).captures =
      s.captures := rfl
@[simp] theorem freeDescriptors_events (s : State) (ds : List Descriptor) :
    (freeDescriptors s ds).events =
      s.events := rfl
@[simp] theorem freeDescriptors_cause (s : State) (ds : List Descriptor) : (freeDescriptors s ds).cause = s.cause := rfl
@[simp] theorem freeDescriptors_mgmt (s : State) (ds : List Descriptor) : (freeDescriptors s ds).mgmt = s.mgmt := rfl
@[simp] theorem freeDescriptors_out (s : State) (ds : List Descriptor) : (freeDescriptors s ds).out = s.out := rfl
@[simp] theorem freeDescriptors_pending (s : State) (ds : List Descriptor) :
    (freeDescriptors s ds).pending =
      s.pending := rfl

/-! ### `endFrame` -/

@[simp] theorem endFrame_phase (s : State) (r : ResultCode) : (endFrame s r).phase = s.phase := rfl
@[simp] theorem endFrame_pins (s : State) (r : ResultCode) : (endFrame s r).pins = s.pins := rfl
@[simp] theorem endFrame_ports (s : State) (r : ResultCode) : (endFrame s r).ports = s.ports := rfl
@[simp] theorem endFrame_lastGranted (s : State) (r : ResultCode) : (endFrame s r).lastGranted = s.lastGranted := rfl
@[simp] theorem endFrame_activeBank (s : State) (r : ResultCode) : (endFrame s r).activeBank = s.activeBank := rfl
@[simp] theorem endFrame_rules (s : State) (r : ResultCode) : (endFrame s r).rules = s.rules := rfl
@[simp] theorem endFrame_tickCounter (s : State) (r : ResultCode) : (endFrame s r).tickCounter = s.tickCounter := rfl
@[simp] theorem endFrame_meters (s : State) (r : ResultCode) : (endFrame s r).meters = s.meters := rfl
@[simp] theorem endFrame_portRec (s : State) (r : ResultCode) : (endFrame s r).portRec = s.portRec := rfl
@[simp] theorem endFrame_classRec (s : State) (r : ResultCode) : (endFrame s r).classRec = s.classRec := rfl
@[simp] theorem endFrame_glob (s : State) (r : ResultCode) : (endFrame s r).glob = s.glob := rfl
@[simp] theorem endFrame_loads (s : State) (r : ResultCode) : (endFrame s r).loads = s.loads := rfl
@[simp] theorem endFrame_writeStore (s : State) (r : ResultCode) : (endFrame s r).writeStore = s.writeStore := rfl
@[simp] theorem endFrame_lottery (s : State) (r : ResultCode) : (endFrame s r).lottery = s.lottery := rfl
@[simp] theorem endFrame_hold (s : State) (r : ResultCode) : (endFrame s r).hold = s.hold := rfl
@[simp] theorem endFrame_drain (s : State) (r : ResultCode) : (endFrame s r).drain = s.drain := rfl
@[simp] theorem endFrame_queues (s : State) (r : ResultCode) : (endFrame s r).queues = s.queues := rfl
@[simp] theorem endFrame_sched (s : State) (r : ResultCode) : (endFrame s r).sched = s.sched := rfl
@[simp] theorem endFrame_tags (s : State) (r : ResultCode) : (endFrame s r).tags = s.tags := rfl
@[simp] theorem endFrame_counters (s : State) (r : ResultCode) : (endFrame s r).counters = s.counters := rfl
@[simp] theorem endFrame_captures (s : State) (r : ResultCode) : (endFrame s r).captures = s.captures := rfl
@[simp] theorem endFrame_events (s : State) (r : ResultCode) : (endFrame s r).events = s.events := rfl
@[simp] theorem endFrame_cause (s : State) (r : ResultCode) : (endFrame s r).cause = s.cause := rfl
@[simp] theorem endFrame_mgmt (s : State) (r : ResultCode) :
    (endFrame s r).mgmt =
      { s.mgmt with result := r, openFrame := none } := rfl
@[simp] theorem endFrame_out (s : State) (r : ResultCode) : (endFrame s r).out = s.out := rfl
@[simp] theorem endFrame_pending (s : State) (r : ResultCode) : (endFrame s r).pending = s.pending := rfl

/-! ### `withSdo` -/

@[simp] theorem withSdo_phase (s : State) (bits : List Bool) : (withSdo s bits).phase = s.phase := rfl
@[simp] theorem withSdo_pins (s : State) (bits : List Bool) : (withSdo s bits).pins = s.pins := rfl
@[simp] theorem withSdo_ports (s : State) (bits : List Bool) : (withSdo s bits).ports = s.ports := rfl
@[simp] theorem withSdo_lastGranted (s : State) (bits : List Bool) : (withSdo s bits).lastGranted = s.lastGranted := rfl
@[simp] theorem withSdo_activeBank (s : State) (bits : List Bool) : (withSdo s bits).activeBank = s.activeBank := rfl
@[simp] theorem withSdo_rules (s : State) (bits : List Bool) : (withSdo s bits).rules = s.rules := rfl
@[simp] theorem withSdo_tickCounter (s : State) (bits : List Bool) : (withSdo s bits).tickCounter = s.tickCounter := rfl
@[simp] theorem withSdo_meters (s : State) (bits : List Bool) : (withSdo s bits).meters = s.meters := rfl
@[simp] theorem withSdo_portRec (s : State) (bits : List Bool) : (withSdo s bits).portRec = s.portRec := rfl
@[simp] theorem withSdo_classRec (s : State) (bits : List Bool) : (withSdo s bits).classRec = s.classRec := rfl
@[simp] theorem withSdo_glob (s : State) (bits : List Bool) : (withSdo s bits).glob = s.glob := rfl
@[simp] theorem withSdo_loads (s : State) (bits : List Bool) : (withSdo s bits).loads = s.loads := rfl
@[simp] theorem withSdo_writeStore (s : State) (bits : List Bool) : (withSdo s bits).writeStore = s.writeStore := rfl
@[simp] theorem withSdo_lottery (s : State) (bits : List Bool) : (withSdo s bits).lottery = s.lottery := rfl
@[simp] theorem withSdo_hold (s : State) (bits : List Bool) : (withSdo s bits).hold = s.hold := rfl
@[simp] theorem withSdo_drain (s : State) (bits : List Bool) : (withSdo s bits).drain = s.drain := rfl
@[simp] theorem withSdo_queues (s : State) (bits : List Bool) : (withSdo s bits).queues = s.queues := rfl
@[simp] theorem withSdo_sched (s : State) (bits : List Bool) : (withSdo s bits).sched = s.sched := rfl
@[simp] theorem withSdo_tags (s : State) (bits : List Bool) : (withSdo s bits).tags = s.tags := rfl
@[simp] theorem withSdo_counters (s : State) (bits : List Bool) : (withSdo s bits).counters = s.counters := rfl
@[simp] theorem withSdo_captures (s : State) (bits : List Bool) : (withSdo s bits).captures = s.captures := rfl
@[simp] theorem withSdo_events (s : State) (bits : List Bool) : (withSdo s bits).events = s.events := rfl
@[simp] theorem withSdo_cause (s : State) (bits : List Bool) : (withSdo s bits).cause = s.cause := rfl
@[simp] theorem withSdo_mgmt (s : State) (bits : List Bool) : (withSdo s bits).mgmt = s.mgmt := rfl
@[simp] theorem withSdo_out (s : State) (bits : List Bool) :
    (withSdo s bits).out =
      { s.out with sdo := some bits } := rfl
@[simp] theorem withSdo_pending (s : State) (bits : List Bool) : (withSdo s bits).pending = s.pending := rfl

/-! ### `leaveOpen` -/

@[simp] theorem leaveOpen_phase (s : State) (o : OpenFrame) : (leaveOpen s o).phase = s.phase := rfl
@[simp] theorem leaveOpen_pins (s : State) (o : OpenFrame) : (leaveOpen s o).pins = s.pins := rfl
@[simp] theorem leaveOpen_ports (s : State) (o : OpenFrame) : (leaveOpen s o).ports = s.ports := rfl
@[simp] theorem leaveOpen_lastGranted (s : State) (o : OpenFrame) : (leaveOpen s o).lastGranted = s.lastGranted := rfl
@[simp] theorem leaveOpen_activeBank (s : State) (o : OpenFrame) : (leaveOpen s o).activeBank = s.activeBank := rfl
@[simp] theorem leaveOpen_rules (s : State) (o : OpenFrame) : (leaveOpen s o).rules = s.rules := rfl
@[simp] theorem leaveOpen_tickCounter (s : State) (o : OpenFrame) : (leaveOpen s o).tickCounter = s.tickCounter := rfl
@[simp] theorem leaveOpen_meters (s : State) (o : OpenFrame) : (leaveOpen s o).meters = s.meters := rfl
@[simp] theorem leaveOpen_portRec (s : State) (o : OpenFrame) : (leaveOpen s o).portRec = s.portRec := rfl
@[simp] theorem leaveOpen_classRec (s : State) (o : OpenFrame) : (leaveOpen s o).classRec = s.classRec := rfl
@[simp] theorem leaveOpen_glob (s : State) (o : OpenFrame) : (leaveOpen s o).glob = s.glob := rfl
@[simp] theorem leaveOpen_loads (s : State) (o : OpenFrame) : (leaveOpen s o).loads = s.loads := rfl
@[simp] theorem leaveOpen_writeStore (s : State) (o : OpenFrame) : (leaveOpen s o).writeStore = s.writeStore := rfl
@[simp] theorem leaveOpen_lottery (s : State) (o : OpenFrame) : (leaveOpen s o).lottery = s.lottery := rfl
@[simp] theorem leaveOpen_hold (s : State) (o : OpenFrame) : (leaveOpen s o).hold = s.hold := rfl
@[simp] theorem leaveOpen_drain (s : State) (o : OpenFrame) : (leaveOpen s o).drain = s.drain := rfl
@[simp] theorem leaveOpen_queues (s : State) (o : OpenFrame) : (leaveOpen s o).queues = s.queues := rfl
@[simp] theorem leaveOpen_sched (s : State) (o : OpenFrame) : (leaveOpen s o).sched = s.sched := rfl
@[simp] theorem leaveOpen_tags (s : State) (o : OpenFrame) : (leaveOpen s o).tags = s.tags := rfl
@[simp] theorem leaveOpen_counters (s : State) (o : OpenFrame) : (leaveOpen s o).counters = s.counters := rfl
@[simp] theorem leaveOpen_captures (s : State) (o : OpenFrame) : (leaveOpen s o).captures = s.captures := rfl
@[simp] theorem leaveOpen_events (s : State) (o : OpenFrame) : (leaveOpen s o).events = s.events := rfl
@[simp] theorem leaveOpen_cause (s : State) (o : OpenFrame) : (leaveOpen s o).cause = s.cause := rfl
@[simp] theorem leaveOpen_mgmt (s : State) (o : OpenFrame) :
    (leaveOpen s o).mgmt =
      { s.mgmt with openFrame := some o } := rfl
@[simp] theorem leaveOpen_out (s : State) (o : OpenFrame) :
    (leaveOpen s o).out =
      { Outputs.quiet with sdo := some o.shifted } := rfl
@[simp] theorem leaveOpen_pending (s : State) (o : OpenFrame) : (leaveOpen s o).pending = s.pending := rfl

/-! ### `acceptRequest` -/

@[simp] theorem acceptRequest_phase (s : State) (p : Fin 6) : (acceptRequest s p).phase = s.phase := rfl
@[simp] theorem acceptRequest_pins (s : State) (p : Fin 6) : (acceptRequest s p).pins = s.pins := rfl
@[simp] theorem acceptRequest_ports (s : State) (p : Fin 6) :
    (acceptRequest s p).ports =
      s.ports.set p { s.ports[p] with slot := none, channel := none } := rfl
@[simp] theorem acceptRequest_lastGranted (s : State) (p : Fin 6) : (acceptRequest s p).lastGranted = p := rfl
@[simp] theorem acceptRequest_activeBank (s : State) (p : Fin 6) : (acceptRequest s p).activeBank = s.activeBank := rfl
@[simp] theorem acceptRequest_rules (s : State) (p : Fin 6) : (acceptRequest s p).rules = s.rules := rfl
@[simp] theorem acceptRequest_tickCounter (s : State) (p : Fin 6) :
    (acceptRequest s p).tickCounter =
      s.tickCounter := rfl
@[simp] theorem acceptRequest_meters (s : State) (p : Fin 6) : (acceptRequest s p).meters = s.meters := rfl
@[simp] theorem acceptRequest_portRec (s : State) (p : Fin 6) : (acceptRequest s p).portRec = s.portRec := rfl
@[simp] theorem acceptRequest_classRec (s : State) (p : Fin 6) : (acceptRequest s p).classRec = s.classRec := rfl
@[simp] theorem acceptRequest_glob (s : State) (p : Fin 6) : (acceptRequest s p).glob = s.glob := rfl
@[simp] theorem acceptRequest_loads (s : State) (p : Fin 6) : (acceptRequest s p).loads = s.loads := rfl
@[simp] theorem acceptRequest_writeStore (s : State) (p : Fin 6) : (acceptRequest s p).writeStore = s.writeStore := rfl
@[simp] theorem acceptRequest_lottery (s : State) (p : Fin 6) : (acceptRequest s p).lottery = s.lottery := rfl
@[simp] theorem acceptRequest_hold (s : State) (p : Fin 6) : (acceptRequest s p).hold = s.hold := rfl
@[simp] theorem acceptRequest_drain (s : State) (p : Fin 6) : (acceptRequest s p).drain = s.drain := rfl
@[simp] theorem acceptRequest_queues (s : State) (p : Fin 6) : (acceptRequest s p).queues = s.queues := rfl
@[simp] theorem acceptRequest_sched (s : State) (p : Fin 6) : (acceptRequest s p).sched = s.sched := rfl
@[simp] theorem acceptRequest_tags (s : State) (p : Fin 6) : (acceptRequest s p).tags = s.tags := rfl
@[simp] theorem acceptRequest_counters (s : State) (p : Fin 6) : (acceptRequest s p).counters = s.counters := rfl
@[simp] theorem acceptRequest_captures (s : State) (p : Fin 6) : (acceptRequest s p).captures = s.captures := rfl
@[simp] theorem acceptRequest_events (s : State) (p : Fin 6) : (acceptRequest s p).events = s.events := rfl
@[simp] theorem acceptRequest_cause (s : State) (p : Fin 6) : (acceptRequest s p).cause = s.cause := rfl
@[simp] theorem acceptRequest_mgmt (s : State) (p : Fin 6) : (acceptRequest s p).mgmt = s.mgmt := rfl
@[simp] theorem acceptRequest_out (s : State) (p : Fin 6) :
    (acceptRequest s p).out =
      { s.out with accepted := some p } := rfl
@[simp] theorem acceptRequest_pending (s : State) (p : Fin 6) : (acceptRequest s p).pending = s.pending := rfl

/-! ### `admitRequest` -/

@[simp] theorem admitRequest_phase (s : State) (p : Fin 6) (r : Request) (t : Treatment) :
    (admitRequest s p r t).phase =
      s.phase := rfl
@[simp] theorem admitRequest_pins (s : State) (p : Fin 6) (r : Request) (t : Treatment) :
    (admitRequest s p r t).pins =
      s.pins := rfl
@[simp] theorem admitRequest_ports (s : State) (p : Fin 6) (r : Request) (t : Treatment) :
    (admitRequest s p r t).ports =
      s.ports.set p { s.ports[p] with tagLive := s.ports[p].tagLive.set r.tag true } := rfl
@[simp] theorem admitRequest_lastGranted (s : State) (p : Fin 6) (r : Request) (t : Treatment) :
    (admitRequest s p r t).lastGranted =
      s.lastGranted := rfl
@[simp] theorem admitRequest_activeBank (s : State) (p : Fin 6) (r : Request) (t : Treatment) :
    (admitRequest s p r t).activeBank =
      s.activeBank := rfl
@[simp] theorem admitRequest_rules (s : State) (p : Fin 6) (r : Request) (t : Treatment) :
    (admitRequest s p r t).rules =
      s.rules := rfl
@[simp] theorem admitRequest_tickCounter (s : State) (p : Fin 6) (r : Request) (t : Treatment) :
    (admitRequest s p r t).tickCounter =
      s.tickCounter := rfl
@[simp] theorem admitRequest_meters (s : State) (p : Fin 6) (r : Request) (t : Treatment) :
    (admitRequest s p r t).meters =
      s.meters := rfl
@[simp] theorem admitRequest_portRec (s : State) (p : Fin 6) (r : Request) (t : Treatment) :
    (admitRequest s p r t).portRec =
      s.portRec := rfl
@[simp] theorem admitRequest_classRec (s : State) (p : Fin 6) (r : Request) (t : Treatment) :
    (admitRequest s p r t).classRec =
      s.classRec := rfl
@[simp] theorem admitRequest_glob (s : State) (p : Fin 6) (r : Request) (t : Treatment) :
    (admitRequest s p r t).glob =
      s.glob := rfl
@[simp] theorem admitRequest_loads (s : State) (p : Fin 6) (r : Request) (t : Treatment) :
    (admitRequest s p r t).loads =
      s.loads.add s.classRec p t.cls r.beats := rfl
@[simp] theorem admitRequest_writeStore (s : State) (p : Fin 6) (r : Request) (t : Treatment) :
    (admitRequest s p r t).writeStore =
      if r.kind = .write then s.writeStore ++ [⟨p, r.tag, r.data⟩] else s.writeStore := rfl
@[simp] theorem admitRequest_lottery (s : State) (p : Fin 6) (r : Request) (t : Treatment) :
    (admitRequest s p r t).lottery =
      s.lottery := rfl
@[simp] theorem admitRequest_hold (s : State) (p : Fin 6) (r : Request) (t : Treatment) :
    (admitRequest s p r t).hold =
      s.hold := rfl
@[simp] theorem admitRequest_drain (s : State) (p : Fin 6) (r : Request) (t : Treatment) :
    (admitRequest s p r t).drain =
      s.drain := rfl
@[simp] theorem admitRequest_queues (s : State) (p : Fin 6) (r : Request) (t : Treatment) :
    (admitRequest s p r t).queues =
      s.queues.set t.cls (s.queues[t.cls] ++ [newDescriptor p r t]) := rfl
@[simp] theorem admitRequest_sched (s : State) (p : Fin 6) (r : Request) (t : Treatment) :
    (admitRequest s p r t).sched =
      s.sched := rfl
@[simp] theorem admitRequest_tags (s : State) (p : Fin 6) (r : Request) (t : Treatment) :
    (admitRequest s p r t).tags =
      s.tags := rfl
@[simp] theorem admitRequest_counters (s : State) (p : Fin 6) (r : Request) (t : Treatment) :
    (admitRequest s p r t).counters =
      s.counters := rfl
@[simp] theorem admitRequest_captures (s : State) (p : Fin 6) (r : Request) (t : Treatment) :
    (admitRequest s p r t).captures =
      s.captures := rfl
@[simp] theorem admitRequest_events (s : State) (p : Fin 6) (r : Request) (t : Treatment) :
    (admitRequest s p r t).events =
      s.events := rfl
@[simp] theorem admitRequest_cause (s : State) (p : Fin 6) (r : Request) (t : Treatment) :
    (admitRequest s p r t).cause =
      s.cause := rfl
@[simp] theorem admitRequest_mgmt (s : State) (p : Fin 6) (r : Request) (t : Treatment) :
    (admitRequest s p r t).mgmt =
      s.mgmt := rfl
@[simp] theorem admitRequest_out (s : State) (p : Fin 6) (r : Request) (t : Treatment) :
    (admitRequest s p r t).out =
      s.out := rfl
@[simp] theorem admitRequest_pending (s : State) (p : Fin 6) (r : Request) (t : Treatment) :
    (admitRequest s p r t).pending =
      s.pending := rfl

/-! ### `issueHead` -/

@[simp] theorem issueHead_phase (s : State) (k : Fin 8) (sc : Sched) (t : Fin 32) (d : Descriptor) (rest : List Descriptor) :
    (issueHead s k sc t d rest).phase =
      s.phase := rfl
@[simp] theorem issueHead_pins (s : State) (k : Fin 8) (sc : Sched) (t : Fin 32) (d : Descriptor) (rest : List Descriptor) :
    (issueHead s k sc t d rest).pins =
      s.pins := rfl
@[simp] theorem issueHead_ports (s : State) (k : Fin 8) (sc : Sched) (t : Fin 32) (d : Descriptor) (rest : List Descriptor) :
    (issueHead s k sc t d rest).ports =
      s.ports := rfl
@[simp] theorem issueHead_lastGranted (s : State) (k : Fin 8) (sc : Sched) (t : Fin 32) (d : Descriptor) (rest : List Descriptor) :
    (issueHead s k sc t d rest).lastGranted =
      s.lastGranted := rfl
@[simp] theorem issueHead_activeBank (s : State) (k : Fin 8) (sc : Sched) (t : Fin 32) (d : Descriptor) (rest : List Descriptor) :
    (issueHead s k sc t d rest).activeBank =
      s.activeBank := rfl
@[simp] theorem issueHead_rules (s : State) (k : Fin 8) (sc : Sched) (t : Fin 32) (d : Descriptor) (rest : List Descriptor) :
    (issueHead s k sc t d rest).rules =
      s.rules := rfl
@[simp] theorem issueHead_tickCounter (s : State) (k : Fin 8) (sc : Sched) (t : Fin 32) (d : Descriptor) (rest : List Descriptor) :
    (issueHead s k sc t d rest).tickCounter =
      s.tickCounter := rfl
@[simp] theorem issueHead_meters (s : State) (k : Fin 8) (sc : Sched) (t : Fin 32) (d : Descriptor) (rest : List Descriptor) :
    (issueHead s k sc t d rest).meters =
      s.meters := rfl
@[simp] theorem issueHead_portRec (s : State) (k : Fin 8) (sc : Sched) (t : Fin 32) (d : Descriptor) (rest : List Descriptor) :
    (issueHead s k sc t d rest).portRec =
      s.portRec := rfl
@[simp] theorem issueHead_classRec (s : State) (k : Fin 8) (sc : Sched) (t : Fin 32) (d : Descriptor) (rest : List Descriptor) :
    (issueHead s k sc t d rest).classRec =
      s.classRec := rfl
@[simp] theorem issueHead_glob (s : State) (k : Fin 8) (sc : Sched) (t : Fin 32) (d : Descriptor) (rest : List Descriptor) :
    (issueHead s k sc t d rest).glob =
      s.glob := rfl
@[simp] theorem issueHead_loads (s : State) (k : Fin 8) (sc : Sched) (t : Fin 32) (d : Descriptor) (rest : List Descriptor) :
    (issueHead s k sc t d rest).loads =
      s.loads := rfl
@[simp] theorem issueHead_writeStore (s : State) (k : Fin 8) (sc : Sched) (t : Fin 32) (d : Descriptor) (rest : List Descriptor) :
    (issueHead s k sc t d rest).writeStore =
      s.writeStore := rfl
@[simp] theorem issueHead_lottery (s : State) (k : Fin 8) (sc : Sched) (t : Fin 32) (d : Descriptor) (rest : List Descriptor) :
    (issueHead s k sc t d rest).lottery =
      s.lottery := rfl
@[simp] theorem issueHead_hold (s : State) (k : Fin 8) (sc : Sched) (t : Fin 32) (d : Descriptor) (rest : List Descriptor) :
    (issueHead s k sc t d rest).hold =
      s.hold := rfl
@[simp] theorem issueHead_drain (s : State) (k : Fin 8) (sc : Sched) (t : Fin 32) (d : Descriptor) (rest : List Descriptor) :
    (issueHead s k sc t d rest).drain =
      s.drain := rfl
@[simp] theorem issueHead_queues (s : State) (k : Fin 8) (sc : Sched) (t : Fin 32) (d : Descriptor) (rest : List Descriptor) :
    (issueHead s k sc t d rest).queues =
      s.queues.set k rest := rfl
@[simp] theorem issueHead_sched (s : State) (k : Fin 8) (sc : Sched) (t : Fin 32) (d : Descriptor) (rest : List Descriptor) :
    (issueHead s k sc t d rest).sched =
      sc := rfl
@[simp] theorem issueHead_tags (s : State) (k : Fin 8) (sc : Sched) (t : Fin 32) (d : Descriptor) (rest : List Descriptor) :
    (issueHead s k sc t d rest).tags =
      s.tags.set t (.busy { d with state := .issued, dtag := some t }) := rfl
@[simp] theorem issueHead_counters (s : State) (k : Fin 8) (sc : Sched) (t : Fin 32) (d : Descriptor) (rest : List Descriptor) :
    (issueHead s k sc t d rest).counters =
      s.counters := rfl
@[simp] theorem issueHead_captures (s : State) (k : Fin 8) (sc : Sched) (t : Fin 32) (d : Descriptor) (rest : List Descriptor) :
    (issueHead s k sc t d rest).captures =
      s.captures := rfl
@[simp] theorem issueHead_events (s : State) (k : Fin 8) (sc : Sched) (t : Fin 32) (d : Descriptor) (rest : List Descriptor) :
    (issueHead s k sc t d rest).events =
      s.events := rfl
@[simp] theorem issueHead_cause (s : State) (k : Fin 8) (sc : Sched) (t : Fin 32) (d : Descriptor) (rest : List Descriptor) :
    (issueHead s k sc t d rest).cause =
      s.cause := rfl
@[simp] theorem issueHead_mgmt (s : State) (k : Fin 8) (sc : Sched) (t : Fin 32) (d : Descriptor) (rest : List Descriptor) :
    (issueHead s k sc t d rest).mgmt =
      s.mgmt := rfl
@[simp] theorem issueHead_out (s : State) (k : Fin 8) (sc : Sched) (t : Fin 32) (d : Descriptor) (rest : List Descriptor) :
    (issueHead s k sc t d rest).out =
      { s.out with downstream := some (downstreamOf s t d) } := rfl
@[simp] theorem issueHead_pending (s : State) (k : Fin 8) (sc : Sched) (t : Fin 32) (d : Descriptor) (rest : List Descriptor) :
    (issueHead s k sc t d rest).pending =
      s.pending := rfl

/-! ### `refillMeters` -/

@[simp] theorem refillMeters_phase (s : State) : (refillMeters s).phase = s.phase := by
  simp only [refillMeters, evalLatches]
@[simp] theorem refillMeters_pins (s : State) : (refillMeters s).pins = s.pins := by
  simp only [refillMeters, evalLatches]
@[simp] theorem refillMeters_ports (s : State) : (refillMeters s).ports = s.ports := by
  simp only [refillMeters, evalLatches]
@[simp] theorem refillMeters_lastGranted (s : State) : (refillMeters s).lastGranted = s.lastGranted := by
  simp only [refillMeters, evalLatches]
@[simp] theorem refillMeters_activeBank (s : State) : (refillMeters s).activeBank = s.activeBank := by
  simp only [refillMeters, evalLatches]
@[simp] theorem refillMeters_rules (s : State) : (refillMeters s).rules = s.rules := by
  simp only [refillMeters, evalLatches]
@[simp] theorem refillMeters_tickCounter (s : State) : (refillMeters s).tickCounter = s.tickCounter := by
  simp only [refillMeters, evalLatches]
@[simp] theorem refillMeters_meters (s : State) : (refillMeters s).meters = .ofFn fun m => s.meters[m].refill := by
  simp only [refillMeters, evalLatches]
@[simp] theorem refillMeters_portRec (s : State) : (refillMeters s).portRec = s.portRec := by
  simp only [refillMeters, evalLatches]
@[simp] theorem refillMeters_classRec (s : State) : (refillMeters s).classRec = s.classRec := by
  simp only [refillMeters, evalLatches]
@[simp] theorem refillMeters_glob (s : State) : (refillMeters s).glob = s.glob := by
  simp only [refillMeters, evalLatches]
@[simp] theorem refillMeters_loads (s : State) : (refillMeters s).loads = s.loads := by
  simp only [refillMeters, evalLatches]
@[simp] theorem refillMeters_writeStore (s : State) : (refillMeters s).writeStore = s.writeStore := by
  simp only [refillMeters, evalLatches]
@[simp] theorem refillMeters_lottery (s : State) : (refillMeters s).lottery = s.lottery := by
  simp only [refillMeters, evalLatches]
@[simp] theorem refillMeters_drain (s : State) : (refillMeters s).drain = s.drain := by
  simp only [refillMeters, evalLatches]
@[simp] theorem refillMeters_queues (s : State) : (refillMeters s).queues = s.queues := by
  simp only [refillMeters, evalLatches]
@[simp] theorem refillMeters_sched (s : State) : (refillMeters s).sched = s.sched := by
  simp only [refillMeters, evalLatches]
@[simp] theorem refillMeters_tags (s : State) : (refillMeters s).tags = s.tags := by
  simp only [refillMeters, evalLatches]
@[simp] theorem refillMeters_counters (s : State) : (refillMeters s).counters = s.counters := by
  simp only [refillMeters, evalLatches]
@[simp] theorem refillMeters_captures (s : State) : (refillMeters s).captures = s.captures := by
  simp only [refillMeters, evalLatches]
@[simp] theorem refillMeters_events (s : State) : (refillMeters s).events = s.events := by
  simp only [refillMeters, evalLatches]
@[simp] theorem refillMeters_cause (s : State) : (refillMeters s).cause = s.cause := by
  simp only [refillMeters, evalLatches]
@[simp] theorem refillMeters_mgmt (s : State) : (refillMeters s).mgmt = s.mgmt := by
  simp only [refillMeters, evalLatches]
@[simp] theorem refillMeters_out (s : State) : (refillMeters s).out = s.out := by
  simp only [refillMeters, evalLatches]
@[simp] theorem refillMeters_pending (s : State) : (refillMeters s).pending = s.pending := by
  simp only [refillMeters, evalLatches]

/-! ### `countDownAll` -/

@[simp] theorem countDownAll_phase (s : State) : (countDownAll s).phase = s.phase := rfl
@[simp] theorem countDownAll_pins (s : State) : (countDownAll s).pins = s.pins := rfl
@[simp] theorem countDownAll_ports (s : State) : (countDownAll s).ports = s.ports := rfl
@[simp] theorem countDownAll_lastGranted (s : State) : (countDownAll s).lastGranted = s.lastGranted := rfl
@[simp] theorem countDownAll_activeBank (s : State) : (countDownAll s).activeBank = s.activeBank := rfl
@[simp] theorem countDownAll_rules (s : State) : (countDownAll s).rules = s.rules := rfl
@[simp] theorem countDownAll_tickCounter (s : State) : (countDownAll s).tickCounter = s.tickCounter := rfl
@[simp] theorem countDownAll_meters (s : State) : (countDownAll s).meters = s.meters := rfl
@[simp] theorem countDownAll_portRec (s : State) : (countDownAll s).portRec = s.portRec := rfl
@[simp] theorem countDownAll_classRec (s : State) : (countDownAll s).classRec = s.classRec := rfl
@[simp] theorem countDownAll_glob (s : State) : (countDownAll s).glob = s.glob := rfl
@[simp] theorem countDownAll_loads (s : State) : (countDownAll s).loads = s.loads := rfl
@[simp] theorem countDownAll_writeStore (s : State) : (countDownAll s).writeStore = s.writeStore := rfl
@[simp] theorem countDownAll_lottery (s : State) : (countDownAll s).lottery = s.lottery := rfl
@[simp] theorem countDownAll_hold (s : State) : (countDownAll s).hold = s.hold := rfl
@[simp] theorem countDownAll_drain (s : State) : (countDownAll s).drain = s.drain := rfl
@[simp] theorem countDownAll_queues (s : State) :
    (countDownAll s).queues =
      .ofFn fun k => s.queues[k].map Descriptor.countDown := rfl
@[simp] theorem countDownAll_sched (s : State) : (countDownAll s).sched = s.sched := rfl
@[simp] theorem countDownAll_tags (s : State) : (countDownAll s).tags = .ofFn fun t => s.tags[t].countDown := rfl
@[simp] theorem countDownAll_counters (s : State) : (countDownAll s).counters = s.counters := rfl
@[simp] theorem countDownAll_captures (s : State) : (countDownAll s).captures = s.captures := rfl
@[simp] theorem countDownAll_events (s : State) : (countDownAll s).events = s.events := rfl
@[simp] theorem countDownAll_cause (s : State) : (countDownAll s).cause = s.cause := rfl
@[simp] theorem countDownAll_mgmt (s : State) : (countDownAll s).mgmt = s.mgmt := rfl
@[simp] theorem countDownAll_out (s : State) : (countDownAll s).out = s.out := rfl
@[simp] theorem countDownAll_pending (s : State) : (countDownAll s).pending = s.pending := rfl

/-! ### `dropExpired` -/

@[simp] theorem dropExpired_phase (s : State) : (dropExpired s).phase = s.phase := rfl
@[simp] theorem dropExpired_pins (s : State) : (dropExpired s).pins = s.pins := rfl
@[simp] theorem dropExpired_ports (s : State) : (dropExpired s).ports = s.ports := rfl
@[simp] theorem dropExpired_lastGranted (s : State) : (dropExpired s).lastGranted = s.lastGranted := rfl
@[simp] theorem dropExpired_activeBank (s : State) : (dropExpired s).activeBank = s.activeBank := rfl
@[simp] theorem dropExpired_rules (s : State) : (dropExpired s).rules = s.rules := rfl
@[simp] theorem dropExpired_tickCounter (s : State) : (dropExpired s).tickCounter = s.tickCounter := rfl
@[simp] theorem dropExpired_meters (s : State) : (dropExpired s).meters = s.meters := rfl
@[simp] theorem dropExpired_portRec (s : State) : (dropExpired s).portRec = s.portRec := rfl
@[simp] theorem dropExpired_classRec (s : State) : (dropExpired s).classRec = s.classRec := rfl
@[simp] theorem dropExpired_glob (s : State) : (dropExpired s).glob = s.glob := rfl
@[simp] theorem dropExpired_loads (s : State) : (dropExpired s).loads = s.loads := rfl
@[simp] theorem dropExpired_writeStore (s : State) : (dropExpired s).writeStore = s.writeStore := rfl
@[simp] theorem dropExpired_lottery (s : State) : (dropExpired s).lottery = s.lottery := rfl
@[simp] theorem dropExpired_hold (s : State) : (dropExpired s).hold = s.hold := rfl
@[simp] theorem dropExpired_drain (s : State) : (dropExpired s).drain = s.drain := rfl
@[simp] theorem dropExpired_queues (s : State) :
    (dropExpired s).queues =
      .ofFn fun k => s.queues[k].filter fun d => !d.ranOut := rfl
@[simp] theorem dropExpired_sched (s : State) :
    (dropExpired s).sched =
      { s.sched with deficit := .ofFn (deficitAfterExpiry s) } := rfl
@[simp] theorem dropExpired_tags (s : State) : (dropExpired s).tags = .ofFn fun t => s.tags[t].expire := rfl
@[simp] theorem dropExpired_counters (s : State) : (dropExpired s).counters = s.counters := rfl
@[simp] theorem dropExpired_captures (s : State) : (dropExpired s).captures = s.captures := rfl
@[simp] theorem dropExpired_events (s : State) : (dropExpired s).events = s.events := rfl
@[simp] theorem dropExpired_cause (s : State) : (dropExpired s).cause = s.cause := rfl
@[simp] theorem dropExpired_mgmt (s : State) : (dropExpired s).mgmt = s.mgmt := rfl
@[simp] theorem dropExpired_out (s : State) : (dropExpired s).out = s.out := rfl
@[simp] theorem dropExpired_pending (s : State) : (dropExpired s).pending = s.pending := rfl

/-! ### `setRule` -/

@[simp] theorem setRule_phase (s : State) (b : Fin 2) (i : Fin 48) (r : Rule) : (setRule s b i r).phase = s.phase := rfl
@[simp] theorem setRule_pins (s : State) (b : Fin 2) (i : Fin 48) (r : Rule) : (setRule s b i r).pins = s.pins := rfl
@[simp] theorem setRule_ports (s : State) (b : Fin 2) (i : Fin 48) (r : Rule) : (setRule s b i r).ports = s.ports := rfl
@[simp] theorem setRule_lastGranted (s : State) (b : Fin 2) (i : Fin 48) (r : Rule) :
    (setRule s b i r).lastGranted =
      s.lastGranted := rfl
@[simp] theorem setRule_activeBank (s : State) (b : Fin 2) (i : Fin 48) (r : Rule) :
    (setRule s b i r).activeBank =
      s.activeBank := rfl
@[simp] theorem setRule_rules (s : State) (b : Fin 2) (i : Fin 48) (r : Rule) :
    (setRule s b i r).rules =
      s.rules.set b (s.rules[b].set i r) := rfl
@[simp] theorem setRule_tickCounter (s : State) (b : Fin 2) (i : Fin 48) (r : Rule) :
    (setRule s b i r).tickCounter =
      s.tickCounter := rfl
@[simp] theorem setRule_meters (s : State) (b : Fin 2) (i : Fin 48) (r : Rule) :
    (setRule s b i r).meters =
      s.meters := rfl
@[simp] theorem setRule_portRec (s : State) (b : Fin 2) (i : Fin 48) (r : Rule) :
    (setRule s b i r).portRec =
      s.portRec := rfl
@[simp] theorem setRule_classRec (s : State) (b : Fin 2) (i : Fin 48) (r : Rule) :
    (setRule s b i r).classRec =
      s.classRec := rfl
@[simp] theorem setRule_glob (s : State) (b : Fin 2) (i : Fin 48) (r : Rule) : (setRule s b i r).glob = s.glob := rfl
@[simp] theorem setRule_loads (s : State) (b : Fin 2) (i : Fin 48) (r : Rule) : (setRule s b i r).loads = s.loads := rfl
@[simp] theorem setRule_writeStore (s : State) (b : Fin 2) (i : Fin 48) (r : Rule) :
    (setRule s b i r).writeStore =
      s.writeStore := rfl
@[simp] theorem setRule_lottery (s : State) (b : Fin 2) (i : Fin 48) (r : Rule) :
    (setRule s b i r).lottery =
      s.lottery := rfl
@[simp] theorem setRule_hold (s : State) (b : Fin 2) (i : Fin 48) (r : Rule) : (setRule s b i r).hold = s.hold := rfl
@[simp] theorem setRule_drain (s : State) (b : Fin 2) (i : Fin 48) (r : Rule) : (setRule s b i r).drain = s.drain := rfl
@[simp] theorem setRule_queues (s : State) (b : Fin 2) (i : Fin 48) (r : Rule) :
    (setRule s b i r).queues =
      s.queues := rfl
@[simp] theorem setRule_sched (s : State) (b : Fin 2) (i : Fin 48) (r : Rule) : (setRule s b i r).sched = s.sched := rfl
@[simp] theorem setRule_tags (s : State) (b : Fin 2) (i : Fin 48) (r : Rule) : (setRule s b i r).tags = s.tags := rfl
@[simp] theorem setRule_counters (s : State) (b : Fin 2) (i : Fin 48) (r : Rule) :
    (setRule s b i r).counters =
      s.counters := rfl
@[simp] theorem setRule_captures (s : State) (b : Fin 2) (i : Fin 48) (r : Rule) :
    (setRule s b i r).captures =
      s.captures := rfl
@[simp] theorem setRule_events (s : State) (b : Fin 2) (i : Fin 48) (r : Rule) :
    (setRule s b i r).events =
      s.events := rfl
@[simp] theorem setRule_cause (s : State) (b : Fin 2) (i : Fin 48) (r : Rule) : (setRule s b i r).cause = s.cause := rfl
@[simp] theorem setRule_mgmt (s : State) (b : Fin 2) (i : Fin 48) (r : Rule) : (setRule s b i r).mgmt = s.mgmt := rfl
@[simp] theorem setRule_out (s : State) (b : Fin 2) (i : Fin 48) (r : Rule) : (setRule s b i r).out = s.out := rfl
@[simp] theorem setRule_pending (s : State) (b : Fin 2) (i : Fin 48) (r : Rule) :
    (setRule s b i r).pending =
      s.pending := rfl

/-! ### `applyClass` -/

@[simp] theorem applyClass_phase (s : State) (k : Fin 8) (r : ClassRecord) : (applyClass s k r).phase = s.phase := rfl
@[simp] theorem applyClass_pins (s : State) (k : Fin 8) (r : ClassRecord) : (applyClass s k r).pins = s.pins := rfl
@[simp] theorem applyClass_ports (s : State) (k : Fin 8) (r : ClassRecord) : (applyClass s k r).ports = s.ports := rfl
@[simp] theorem applyClass_lastGranted (s : State) (k : Fin 8) (r : ClassRecord) :
    (applyClass s k r).lastGranted =
      s.lastGranted := rfl
@[simp] theorem applyClass_activeBank (s : State) (k : Fin 8) (r : ClassRecord) :
    (applyClass s k r).activeBank =
      s.activeBank := rfl
@[simp] theorem applyClass_rules (s : State) (k : Fin 8) (r : ClassRecord) : (applyClass s k r).rules = s.rules := rfl
@[simp] theorem applyClass_tickCounter (s : State) (k : Fin 8) (r : ClassRecord) :
    (applyClass s k r).tickCounter =
      s.tickCounter := rfl
@[simp] theorem applyClass_meters (s : State) (k : Fin 8) (r : ClassRecord) :
    (applyClass s k r).meters =
      s.meters := rfl
@[simp] theorem applyClass_portRec (s : State) (k : Fin 8) (r : ClassRecord) :
    (applyClass s k r).portRec =
      s.portRec := rfl
@[simp] theorem applyClass_classRec (s : State) (k : Fin 8) (r : ClassRecord) :
    (applyClass s k r).classRec =
      s.classRec.set k r := rfl
@[simp] theorem applyClass_glob (s : State) (k : Fin 8) (r : ClassRecord) : (applyClass s k r).glob = s.glob := rfl
@[simp] theorem applyClass_loads (s : State) (k : Fin 8) (r : ClassRecord) :
    (applyClass s k r).loads =
      s.loads.recompute (s.classRec.set k r) := rfl
@[simp] theorem applyClass_writeStore (s : State) (k : Fin 8) (r : ClassRecord) :
    (applyClass s k r).writeStore =
      s.writeStore := rfl
@[simp] theorem applyClass_lottery (s : State) (k : Fin 8) (r : ClassRecord) :
    (applyClass s k r).lottery =
      s.lottery := rfl
@[simp] theorem applyClass_hold (s : State) (k : Fin 8) (r : ClassRecord) : (applyClass s k r).hold = s.hold := rfl
@[simp] theorem applyClass_drain (s : State) (k : Fin 8) (r : ClassRecord) : (applyClass s k r).drain = s.drain := rfl
@[simp] theorem applyClass_queues (s : State) (k : Fin 8) (r : ClassRecord) :
    (applyClass s k r).queues =
      s.queues := rfl
@[simp] theorem applyClass_sched (s : State) (k : Fin 8) (r : ClassRecord) :
    (applyClass s k r).sched =
      { s.sched with deficit := s.sched.deficit.set k 0 } := rfl
@[simp] theorem applyClass_tags (s : State) (k : Fin 8) (r : ClassRecord) : (applyClass s k r).tags = s.tags := rfl
@[simp] theorem applyClass_counters (s : State) (k : Fin 8) (r : ClassRecord) :
    (applyClass s k r).counters =
      s.counters := rfl
@[simp] theorem applyClass_captures (s : State) (k : Fin 8) (r : ClassRecord) :
    (applyClass s k r).captures =
      s.captures := rfl
@[simp] theorem applyClass_events (s : State) (k : Fin 8) (r : ClassRecord) :
    (applyClass s k r).events =
      s.events := rfl
@[simp] theorem applyClass_cause (s : State) (k : Fin 8) (r : ClassRecord) : (applyClass s k r).cause = s.cause := rfl
@[simp] theorem applyClass_mgmt (s : State) (k : Fin 8) (r : ClassRecord) : (applyClass s k r).mgmt = s.mgmt := rfl
@[simp] theorem applyClass_out (s : State) (k : Fin 8) (r : ClassRecord) : (applyClass s k r).out = s.out := rfl
@[simp] theorem applyClass_pending (s : State) (k : Fin 8) (r : ClassRecord) :
    (applyClass s k r).pending =
      s.pending := rfl

end Sys2Proof.Machine
end

