-- ==== Sys2Proof/Laws/Ops.lean ====
section
/-! SUPPORT. One lemma or a few for each shared operation, saying once what it can do; a later proof cites them and does not
unfold the operation. -/

namespace Sys2Proof

/-! ### Codes -/

theorem Command.ofCode_code (c : Command) : Command.ofCode c.code = some c := by cases c <;> rfl

theorem Table.ofCode_code (t : Table) : Table.ofCode t.code = some t := by cases t <;> rfl

theorem Command.code_injective {c d : Command} (h : c.code = d.code) : c = d := by
  have := congrArg Command.ofCode h
  simpa only [Command.ofCode_code, Option.some.injEq] using this

theorem Table.code_injective {c d : Table} (h : c.code = d.code) : c = d := by
  have := congrArg Table.ofCode h
  simpa only [Table.ofCode_code, Option.some.injEq] using this

/-! ### Serial bits -/

theorem byteOfBits_getLsbD (b : Byte) :
    byteOfBits (b.getLsbD 7) (b.getLsbD 6) (b.getLsbD 5) (b.getLsbD 4) (b.getLsbD 3) (b.getLsbD 2) (b.getLsbD 1)
      (b.getLsbD 0) = b := by
  revert b
  decide +kernel

/-- The bits of a byte make that byte. -/
theorem bytesOfBits_cons (b : Byte) (l : List Bool) : bytesOfBits (bitsOfByte b ++ l) = b :: bytesOfBits l := by
  simp only [bitsOfByte, List.cons_append, List.nil_append, bytesOfBits, byteOfBits_getLsbD]

/-- Bytes put on the line are the bytes read from it. -/
theorem bytesOfBits_bitsOfBytes (l : List Byte) : bytesOfBits (bitsOfBytes l) = l := by
  induction l with
  | nil => rfl
  | cons b l ih =>
    simp only [bitsOfBytes, List.flatMap_cons] at ih ⊢
    rw [bytesOfBits_cons, ih]

theorem bitsOfByte_length (b : Byte) : (bitsOfByte b).length = 8 := rfl

/-- Bit `i` of byte `n` of a run of bytes. -/
theorem bitsOfBytes_getD (l : List Byte) (n i : Nat) (hi : i < 8) :
    (bitsOfBytes l).getD (8 * n + i) false = (l.getD n 0#8).getLsbD (7 - i) := by
  induction l generalizing n with
  | nil => simp [bitsOfBytes]
  | cons b l ih =>
    cases n with
    | zero =>
      interval_cases i <;> rfl
    | succ n =>
      have := ih n
      rw [show 8 * (n + 1) + i = 8 + (8 * n + i) by omega]
      simp only [bitsOfBytes, List.flatMap_cons, List.getD_eq_getElem?_getD] at this ⊢
      rw [List.getElem?_append_right (by simp only [bitsOfByte_length]; omega), bitsOfByte_length,
        Nat.add_sub_cancel_left, this, List.getElem?_cons_succ]

/-- A frame written with a command's code is read with that code and the same rest. -/
theorem frameOf_afterBytes (c : Command) (f : FrameBits) : (frameOf c f).afterBytes 1 = f := by
  cases f
  rfl

theorem tableFrameOf_afterBytes (c : Command) (t : Table) (f : FrameBits) : (tableFrameOf c t f).afterBytes 2 = f := by
  cases f
  rfl

/-! ### Lists brought to a length -/

theorem fitTo_length {α : Type} (z : α) (n : Nat) (l : List α) : (fitTo z n l).length = n := by
  simp only [fitTo, List.length_append, List.length_take, List.length_replicate]
  omega

theorem fitTo_of_length {α : Type} (z : α) (l : List α) : fitTo z l.length l = l := by
  simp [fitTo]

/-- Beats within the list are passed on; the missing ones read `z` (R126). -/
theorem fitTo_getD {α : Type} (z : α) (n : Nat) (l : List α) (i : Nat) (h : i < n) :
    (fitTo z n l).getD i z = l.getD i z := by
  simp only [fitTo, List.getD_eq_getElem?_getD]
  by_cases hi : i < l.length
  · rw [List.getElem?_append_left (by simp; omega), List.getElem?_take]
    simp [h]
  · rw [List.getElem?_append_right (by simp; omega), List.getElem?_eq_none (l := l) (by omega)]
    by_cases hk : i - (List.take n l).length < n - l.length
    · simp only [List.getElem?_replicate, hk, if_true, Option.getD_some, Option.getD_none]
    · simp only [List.getElem?_replicate, hk, if_false, Option.getD_none]

theorem FrameBits.lengthIs_iff (f : FrameBits) (code want : Nat) :
    f.lengthIs code want = true ↔ f.edges code = 8 * want := by
  simp only [FrameBits.lengthIs, beq_iff_eq]

theorem Request.carried_dataFits (r : Request) : r.carried.dataFits = true := by
  rcases r with ⟨tag, kind, line, lenM1, hint, priv, data⟩
  cases kind <;> simp [Request.carried, Request.dataFits, fitTo_length, Request.beats]

theorem Request.carried_of_dataFits {r : Request} (h : r.dataFits = true) : r.carried = r := by
  rcases r with ⟨tag, kind, line, lenM1, hint, priv, data⟩
  cases kind
  · simp [Request.dataFits] at h
    simp [Request.carried, h]
  · simp [Request.dataFits] at h
    simp only [Request.carried, ← h, fitTo_of_length]

namespace Machine

/-! ### Numbers -/

theorem leBytes_length (n v : Nat) : (leBytes n v).length = n := by
  induction n generalizing v with
  | zero => rfl
  | succ n ih => simp [leBytes, ih]

/-- The bytes of a number, one by one. -/
theorem leBytes_getD (n v j : Nat) (h : j < n) : (leBytes n v).getD j 0#8 = BitVec.ofNat 8 (v / 256 ^ j) := by
  induction n generalizing v j with
  | zero => omega
  | succ n ih =>
    cases j with
    | zero => simp [leBytes]
    | succ j =>
      have := ih (v / 256) j (by omega)
      simpa [leBytes, Nat.div_div_eq_div_mul, Nat.pow_succ, Nat.mul_comm] using this

theorem leNat_leBytes (n v : Nat) : leNat (leBytes n v) = v % 256 ^ n := by
  induction n generalizing v with
  | zero => simp [leBytes, leNat, Nat.mod_one]
  | succ n ih =>
    simp only [leBytes, leNat, ih, BitVec.toNat_ofNat]
    have h : 256 ^ (n + 1) = 256 * 256 ^ n := by rw [Nat.pow_succ, Nat.mul_comm]
    rw [h, Nat.mod_mul]

theorem leNat_lt (l : List Byte) : leNat l < 256 ^ l.length := by
  induction l with
  | nil => simp [leNat]
  | cons b bs ih =>
    have := b.isLt
    simp only [leNat, List.length_cons, Nat.pow_succ]
    omega

theorem leBytes_leNat (l : List Byte) : leBytes l.length (leNat l) = l := by
  induction l with
  | nil => rfl
  | cons b bs ih =>
    have hb := b.isLt
    have h2 : (b.toNat + 256 * leNat bs) / 256 = leNat bs := by omega
    simp only [List.length_cons, leBytes, leNat, h2, ih]
    congr 1
    apply BitVec.eq_of_toNat_eq
    simp only [BitVec.toNat_ofNat]
    omega

/-! ### Fields of an entry -/

/-- A slice that is the bytes of a number is the field. -/
theorem fieldAt_of_slice {e : List Byte} {i n v : Nat} (h : (e.drop i).take n = leBytes n v) : FieldAt e i n v := by
  intro j hj
  rw [← leBytes_getD n v j hj, ← h]
  simp [List.getD_eq_getElem?_getD, List.getElem?_drop, hj]

/-- One byte of a field of one byte. -/
theorem fieldAt_one (e : List Byte) (i v : Nat) : FieldAt e i 1 v ↔ e.getD i 0#8 = BitVec.ofNat 8 v := by
  simp [FieldAt]

/-- A flag is a field of one byte. -/
theorem fieldAt_flag {e : List Byte} {i : Nat} {b : Bool} (h : e.getD i 0#8 = flagByte b) : FieldAt e i 1 b.toNat := by
  rw [fieldAt_one, h]
  cases b <;> rfl

/-! ### Events of the transaction path -/

theorem whileRunning_running {s : State} (f : State → State) (h : s.phase = .running) :
    whileRunning s f = .next (f s.quiet) := by simp only [whileRunning, h, if_true]

theorem whileRunning_inReset {s : State} (f : State → State) (h : s.phase ≠ .running) :
    whileRunning s f = .next s.quiet := by simp only [whileRunning, h, if_false]

/-! ### Frames -/

theorem frameReady_iff (s : State) :
    frameReady s = true ↔ s.phase = .running ∧ openSnapshot s = none ∧ s.mgmt.awaitCsHigh = false := by
  simp only [frameReady, Bool.and_eq_true, beq_iff_eq, Option.isNone_iff_eq_none, Bool.not_eq_true', and_assoc]

@[simp] theorem openSnapshot_leaveOpen (s : State) (o : OpenFrame) : openSnapshot (leaveOpen s o) = o.snapshot := rfl

@[simp] theorem shiftedOut_quiet (s : State) (f : FrameBits) (code : Nat) (data : List Byte) :
    shiftedOut s.quiet f code data = shiftedOut s f code data := rfl

/-- SDO carries one bit for each SCK edge of the frame (R166). -/
theorem shiftedOut_length (s : State) (f : FrameBits) (code : Nat) (data : List Byte) :
    (shiftedOut s f code data).length = f.edges code := fitTo_length _ _ _

/-- Bit `i` of byte `n` on SDO: the most significant first (R166, R167). -/
theorem shiftedOut_getD (s : State) (f : FrameBits) (code : Nat) (data : List Byte) (n i : Nat) (hi : i < 8)
    (h : 8 * n + i < f.edges code) :
    (shiftedOut s f code data).getD (8 * n + i) false =
      ((s.mgmt.result.byte :: 0#8 :: 0#8 :: data).getD n 0#8).getLsbD (7 - i) := by
  rw [shiftedOut, fitTo_getD _ _ _ _ h, bitsOfBytes_getD _ _ _ hi]

theorem closeFrame_rightLength (s : State) (f : FrameBits) (code want : Nat) (data : List Byte)
    (act : State → State × ResultCode) (h : f.edges code = 8 * want) :
    closeFrame s f code want data act =
      endFrame (act (withSdo s (shiftedOut s f code data))).1 (act (withSdo s (shiftedOut s f code data))).2 := by
  simp only [closeFrame, (f.lengthIs_iff code want).2 h, if_true]

theorem closeFrame_wrongLength (s : State) (f : FrameBits) (code want : Nat) (data : List Byte)
    (act : State → State × ResultCode) (h : f.edges code ≠ 8 * want) :
    closeFrame s f code want data act = discardFrame (withSdo s (shiftedOut s f code data)) := by
  simp only [closeFrame, mt (f.lengthIs_iff code want).1 h]
  rfl

theorem runFrame_ended (s : State) {f : FrameBits} (code want : Nat) (snap : Option Snapshot)
    (act : State → State × ResultCode) (h : f.ended = true) :
    runFrame s f code want snap act = closeFrame s.quiet f code want ((snap.map Snapshot.data).getD []) act := by
  simp only [runFrame, h, if_true]

theorem runFrame_goesOn (s : State) {f : FrameBits} (code want : Nat) (snap : Option Snapshot)
    (act : State → State × ResultCode) (h : f.ended = false) :
    runFrame s f code want snap act = leaveOpen s ⟨snap, shiftedOut s f code ((snap.map Snapshot.data).getD [])⟩ := by
  simp only [runFrame, h]
  rfl

theorem commandFrame_ready {s : State} (c : Command) (f : FrameBits) (act : State → State × ResultCode)
    (h : frameReady s = true) : commandFrame s c f act = .next (runFrame s f 1 c.frameLength none act) := by
  simp only [commandFrame, h, if_true]

theorem commandFrame_notReady {s : State} (c : Command) (f : FrameBits) (act : State → State × ResultCode)
    (h : frameReady s = false) : commandFrame s c f act = .next s.quiet := by
  simp only [commandFrame, h]
  rfl

theorem tableFrame_ready {s : State} (t : Table) (f : FrameBits)
    (act : Byte → List Byte → State → State × ResultCode) (h : frameReady s = true) :
    tableFrame s t f act = .next (runFrame s f 2 t.frameLength none (act (f.bytes.headD 0#8) f.bytes.tail)) := by
  simp only [tableFrame, h, if_true]

theorem tableFrame_notReady {s : State} (t : Table) (f : FrameBits)
    (act : Byte → List Byte → State → State × ResultCode) (h : frameReady s = false) :
    tableFrame s t f act = .next s.quiet := by
  simp only [tableFrame, h]
  rfl

theorem readFrame_opening {s : State} (f : FrameBits) (code want : Nat) (snap : Snapshot)
    (act : Snapshot → State → State × ResultCode) (h : frameReady s = true) (hb : 24 ≤ f.edges code) :
    readFrame s .opening f code want snap act = .next (runFrame s f code want (some snap) (act snap)) := by
  simp only [readFrame, h, hb, if_true]

theorem readFrame_resuming {s : State} (f : FrameBits) (code want : Nat) (snap o : Snapshot)
    (act : Snapshot → State → State × ResultCode) (ho : openSnapshot s = some o) (hs : o.source = snap.source)
    (hp : s.phase = .running) :
    readFrame s .resuming f code want snap act = .next (runFrame s f code want (some o) (act o)) := by
  simp only [readFrame, ho, hs, hp, and_self, if_true]

/-! ### Latches, drains, freeing -/

theorem hysteresis_off (on off : Bool) : hysteresis false on off = on := rfl

theorem hysteresis_on (on off : Bool) : hysteresis true on off = !off := rfl

theorem evalLatches_bypass {s : State} (g : Bool) (pp pc : Fin 6 → Bool) (h : s.drain.mode = .bypass) :
    evalLatches s g pp pc = s := by
  simp only [evalLatches, latchesAfter, h, reduceCtorEq, if_false]

theorem opStateWith_same {d : Drain} (live : Nat) {cmd ln : Bool} (h : (cmd || ln) = d.requested) :
    opStateWith d live cmd ln = d.opState := by
  simp only [opStateWith, h]
  cases d.requested <;> rfl

theorem setRequests_same (s : State) : setRequests s s.drain.command s.drain.line = s := by
  have h : opStateWith s.drain s.loads.liveCount s.drain.command s.drain.line = s.drain.opState :=
    opStateWith_same _ rfl
  have h2 : ((s.drain.command || s.drain.line) && !s.drain.requested) = false := by
    simp only [Drain.requested, Bool.and_not_self]
  simp only [setRequests, h, h2, Bool.false_and, stickyWith, Bool.false_eq_true, if_false]

theorem endDrain_notDraining {s : State} (h : s.drain.opState ≠ .draining) : endDrain s = s := by
  have hc : drainComplete s = false := by
    simp only [drainComplete, Bool.and_eq_false_imp, beq_iff_eq]
    exact fun hd => absurd hd h
  simp only [endDrain, hc, Bool.false_eq_true, if_false, stickyWith]

theorem names_nil (p : Fin 6) (t : Fin 8) : names [] p t = false := rfl

theorem names_iff (ds : List Descriptor) (p : Fin 6) (t : Fin 8) :
    names ds p t = true ↔ ∃ d ∈ ds, d.port = p ∧ d.tag = t := by
  simp only [names, List.any_eq_true, Bool.and_eq_true, beq_iff_eq]

/-! ### Reports -/

theorem stickyWith_false (b : BitVec 8) (e : Sticky) : stickyWith b false e = b := rfl

theorem stickyWith_true (b : BitVec 8) (e : Sticky) : stickyWith b true e = b ||| e.bit := rfl

theorem raise_isRaised (s : State) (e : Sticky) : (s.raise e).isRaised e = true := by
  have h : ∀ b : BitVec 8, ((b ||| e.bit) &&& e.bit != 0#8) = true := by
    cases e <;> simp only [Sticky.bit] <;> decide
  exact h _

theorem counterValue_count (s : State) (g g' : Fin 24) (c c' : Counter) (n : Nat) :
    counterValue (count s g c n) g' c' =
      if countEnabled s g c = true ∧ g' = g ∧ c' = c then counterValue s g c + BitVec.ofNat 32 n
      else counterValue s g' c' := by
  have hidx : c'.idx = c.idx ↔ c' = c := by cases c <;> cases c' <;> simp [Counter.idx]
  cases hon : countEnabled s g c
  · simp [counterValue, count, hon]
  · by_cases hg : g' = g
    · subst hg
      by_cases hc : c' = c
      · subst hc
        simp [counterValue, count, hon]
      · have hne : c.idx.val ≠ c'.idx.val := fun h => hc (hidx.1 (Fin.ext h.symm))
        simp [counterValue, count, hon, hc, Vector.getElem_set_ne _ _ hne]
    · have hne : g.val ≠ g'.val := fun h => hg (Fin.ext h.symm)
      simp [counterValue, count, hon, hg, Vector.getElem_set_ne _ _ hne]

/-! ### Tags and queues -/

theorem lowestFreeTag_isFree {s : State} {t : Fin 32} (h : lowestFreeTag s = some t) : s.tags[t].isFree = true :=
  List.find?_some (p := fun t : Fin 32 => s.tags[t].isFree) h

theorem hasWork_nonempty {s : State} {m : SchedMode} {k : Fin 8} (h : hasWork s m k = true) : s.queues[k] ≠ [] := by
  simp only [hasWork, Bool.and_eq_true, Bool.not_eq_true', List.isEmpty_eq_false_iff] at h
  exact h.2

theorem hasWork_iff (s : State) (m : SchedMode) (k : Fin 8) :
    hasWork s m k = true ↔ s.classRec[k].mode = m ∧ s.queues[k] ≠ [] := by
  simp [hasWork]

/-- The first class of a cyclic order from `ptr` on that passes a test is the one fewest steps after `ptr`. -/
theorem find_classesFrom (ptr k : Fin 8) (f : Fin 8 → Bool) :
    (classesFrom ptr).find? f = some k ↔
      f k = true ∧ ∀ j : Fin 8, f j = true → (k.val + 8 - ptr.val) % 8 ≤ (j.val + 8 - ptr.val) % 8 := by
  have len : (classesFrom ptr).length = 8 := rfl
  have dist : ∀ (q : Fin 8) (i : Fin 8), (((classesFrom q)[i.val]'i.isLt).val + 8 - q.val) % 8 = i.val := by decide
  have at' : ∀ (q j : Fin 8), (classesFrom q)[(j.val + 8 - q.val) % 8]'(Nat.mod_lt _ (by decide)) = j := by decide
  rw [List.find?_eq_some_iff_getElem]
  refine and_congr_right fun hk => ⟨?_, fun h => ?_⟩
  · rintro ⟨i, hi, rfl, first⟩ j hj
    by_contra hlt
    have hd := dist ptr ⟨i, hi⟩
    simp only at hd
    have no : (!f j) = true :=
      (congrArg (fun c => !f c) (at' ptr j)).symm.trans (first ((j.val + 8 - ptr.val) % 8) (by omega))
    rw [hj] at no
    exact absurd no (by decide)
  · refine ⟨(k.val + 8 - ptr.val) % 8, Nat.mod_lt _ (by decide), at' ptr k, fun i hi => ?_⟩
    have hd := dist ptr ⟨i, by omega⟩
    simp only at hd
    by_contra hf
    have := h _ (by simpa using hf)
    omega

/-- The class a visit goes to is the first of R110, step 1. -/
theorem find_firstInRound (s : State) (ptr k : Fin 8) :
    (classesFrom ptr).find? (hasWork s .weighted) = some k ↔ FirstInRound s ptr k := by
  simp only [find_classesFrom, hasWork_iff, FirstInRound, and_imp]

/-- The load of the descriptor at the head of a queue. -/
theorem headLoad_cons {s : State} {k : Fin 8} {d : Descriptor} {rest : List Descriptor} (h : s.queues[k] = d :: rest) :
    headLoad s k = d.beats := by
  simp only [headLoad, h, List.head?_cons, Option.map_some, Option.getD_some]

/-- However many visits are allowed, those that end in a round are the visits of R110. -/
theorem visits_roundFrom (s : State) (n : Nat) (ptr : Fin 8) (deficit : Vector Nat 8) (r : Round)
    (h : visits s n ptr deficit = some r) : RoundFrom s ptr deficit r := by
  induction n generalizing ptr deficit with
  | zero => simp [visits] at h
  | succ n ih =>
    unfold visits at h
    cases hf : (classesFrom ptr).find? (hasWork s .weighted) with
    | none => simp [hf] at h
    | some k =>
      have first := (find_firstInRound s ptr k).1 hf
      obtain ⟨d, rest, hq⟩ := List.exists_cons_of_ne_nil first.1.2
      simp only [hf, headLoad_cons hq] at h
      split at h
      · cases h
        exact .chosen ptr k deficit d rest first hq ‹_›
      · exact .passed ptr k deficit d rest r first hq (by omega) (ih _ _ h)

theorem drawCode_none {a b : Level} (h : drawCode a b = none) (ha : a ≠ .reject) (hb : b ≠ .reject) :
    a = .pass ∧ b = .pass := by
  cases a <;> cases b <;> simp_all [drawCode]

end Machine

end Sys2Proof
end

