-- ==== Sys2Proof/Laws/PerInstr.lean ====
section
/-! SUPPORT. The family NamedRow: the frame of a well-formed command opens with bytes that name a row of R171 and R172, and
only the frame of a BAD_FRAME does not (R170). -/

namespace Sys2Proof

theorem namesNoRow_frameOf (c : Command) (f : FrameBits) (h1 : c ≠ .readEntry) (h2 : c ≠ .writeEntry) :
    (frameOf c f).namesNoRow = false := by
  simp only [FrameBits.namesNoRow, frameOf, FrameBits.bytes, bytesOfBits_cons, Command.ofCode_code]

theorem namesNoRow_tableFrameOf (c : Command) (t : Table) (f : FrameBits) (h : c = .readEntry ∨ c = .writeEntry) :
    (tableFrameOf c t f).namesNoRow = false := by
  simp only [FrameBits.namesNoRow, tableFrameOf, FrameBits.bytes, bytesOfBits_cons, Command.ofCode_code,
    Table.ofCode_code]
  rcases h with rfl | rfl <;> rfl

namespace Laws.NamedRow

/-- What the family says of a command. -/
def Statement (i : Instr) : Prop :=
  i.wellFormed = true → ∀ F : FrameBits, encodeFrame i = some F → (F.namesNoRow = true ↔ ∃ f, i = .badFrame f)

theorem of_none {i : Instr} (h : encodeFrame i = none) : Statement i := by
  intro _ F hF
  rw [h] at hF
  cases hF

theorem of_named {i : Instr} {G : FrameBits} (h : encodeFrame i = some G) (hn : G.namesNoRow = false)
    (hi : ∀ f, i ≠ .badFrame f) : Statement i := by
  intro _ F hF
  rw [h] at hF
  cases hF
  constructor
  · intro hc
    rw [hn] at hc
    cases hc
  · rintro ⟨f, hf⟩
    exact absurd hf (hi f)

theorem requestPresented (p : Fin 6) (r : Request) : Statement (.requestPresented p r) := of_none rfl

theorem take : Statement .take := of_none rfl

theorem issue (b : Bool) : Statement (.issue b) := of_none rfl

theorem completion (t : Fin 32) (m : MemStatus) (d : List Beat) : Statement (.completion t m d) := of_none rfl

theorem tick : Statement .tick := of_none rfl

theorem expiry : Statement .expiry := of_none rfl

theorem quiesceChange (e : Edge) : Statement (.quiesceChange e) := of_none rfl

theorem powerOnReset : Statement .powerOnReset := of_none rfl

theorem lineReset : Statement .lineReset := of_none rfl

theorem readEntry (m : FrameMoment) (t : Table) (f : FrameBits) : Statement (.readEntry m t f) := by
  cases m
  · exact of_named rfl (namesNoRow_tableFrameOf _ t f (.inl rfl)) nofun
  · exact of_none rfl

theorem writeEntry (t : ReadOnlyTable) (f : FrameBits) : Statement (.writeEntry t f) :=
  of_named rfl (namesNoRow_tableFrameOf _ _ f (.inr rfl)) nofun

theorem writeGlobal (f : FrameBits) : Statement (.writeGlobal f) :=
  of_named rfl (namesNoRow_tableFrameOf _ _ f (.inr rfl)) nofun

theorem writePort (f : FrameBits) : Statement (.writePort f) :=
  of_named rfl (namesNoRow_tableFrameOf _ _ f (.inr rfl)) nofun

theorem writeClass (f : FrameBits) : Statement (.writeClass f) :=
  of_named rfl (namesNoRow_tableFrameOf _ _ f (.inr rfl)) nofun

theorem writeMeter (f : FrameBits) : Statement (.writeMeter f) :=
  of_named rfl (namesNoRow_tableFrameOf _ _ f (.inr rfl)) nofun

theorem meterLoad (f : FrameBits) : Statement (.meterLoad f) :=
  of_named rfl (namesNoRow_tableFrameOf _ _ f (.inr rfl)) nofun

theorem writeRulePattern (f : FrameBits) : Statement (.writeRulePattern f) :=
  of_named rfl (namesNoRow_tableFrameOf _ _ f (.inr rfl)) nofun

theorem writeRuleAction (f : FrameBits) : Statement (.writeRuleAction f) :=
  of_named rfl (namesNoRow_tableFrameOf _ _ f (.inr rfl)) nofun

theorem writeEventMask (f : FrameBits) : Statement (.writeEventMask f) :=
  of_named rfl (namesNoRow_tableFrameOf _ _ f (.inr rfl)) nofun

theorem popCapture (m : FrameMoment) (f : FrameBits) : Statement (.popCapture m f) := by
  cases m
  · exact of_named rfl (namesNoRow_frameOf _ f nofun nofun) nofun
  · exact of_none rfl

theorem swapBanks (f : FrameBits) : Statement (.swapBanks f) :=
  of_named rfl (namesNoRow_frameOf _ f nofun nofun) nofun

theorem clearGroup (f : FrameBits) : Statement (.clearGroup f) :=
  of_named rfl (namesNoRow_frameOf _ f nofun nofun) nofun

theorem clearAllCounters (f : FrameBits) : Statement (.clearAllCounters f) :=
  of_named rfl (namesNoRow_frameOf _ f nofun nofun) nofun

theorem clearEvents (f : FrameBits) : Statement (.clearEvents f) :=
  of_named rfl (namesNoRow_frameOf _ f nofun nofun) nofun

theorem clearCause (f : FrameBits) : Statement (.clearCause f) :=
  of_named rfl (namesNoRow_frameOf _ f nofun nofun) nofun

theorem drain (f : FrameBits) : Statement (.drain f) :=
  of_named rfl (namesNoRow_frameOf _ f nofun nofun) nofun

theorem release (f : FrameBits) : Statement (.release f) :=
  of_named rfl (namesNoRow_frameOf _ f nofun nofun) nofun

theorem setMode (f : FrameBits) : Statement (.setMode f) :=
  of_named rfl (namesNoRow_frameOf _ f nofun nofun) nofun

theorem setSeed (f : FrameBits) : Statement (.setSeed f) :=
  of_named rfl (namesNoRow_frameOf _ f nofun nofun) nofun

theorem reclaimTags (f : FrameBits) : Statement (.reclaimTags f) :=
  of_named rfl (namesNoRow_frameOf _ f nofun nofun) nofun

theorem governorReset (h : Bool) (f : FrameBits) : Statement (.governorReset h f) :=
  of_named rfl (namesNoRow_frameOf _ f nofun nofun) nofun

theorem badFrame (f : FrameBits) : Statement (.badFrame f) := by
  intro hw F hF
  cases hF
  exact ⟨fun _ => ⟨_, rfl⟩, fun _ => hw⟩

theorem endOfReset (e : ResetEnd) : Statement (.endOfReset e) := of_none rfl

theorem csNHighAfterReset : Statement .csNHighAfterReset := of_none rfl

end Laws.NamedRow

end Sys2Proof
end

