-- ==== Sys2Proof/Tests/Slice0.lean ====
section
/-! SUPPORT. Tests: ill-formed commands that the check refuses, the spec's own worked examples, and for each statement with
hypotheses a state and operands that meet them. -/

namespace Sys2Proof.Tests

/- One test after another: a `decide +kernel` waits for every theorem before it, and each that waits holds a thread. -/
set_option Elab.async false

open Sys2Proof.Machine

/-! ### Helpers -/

/-- A request of `l + 1` beats, with data if it is a WRITE. -/
def req (k : Kind) (t : Fin 8) (line : BitVec 37) (l : Fin 16) (h : Fin 4) (pr : Bool) : Request :=
  { tag := t, kind := k, line := line, lenM1 := l, hint := h, priv := pr,
    data := match k with
      | .read => []
      | .write => List.replicate (l.val + 1) ⟨7#64, 0xFF#8⟩ }

/-- A sixteen-beat READ at address 0. -/
def req16 : Request := req .read 0 0#37 15 0 false

/-- The request stands in a port's slot. -/
def slotted (s : State) (p : Fin 6) (r : Request) : State :=
  { s with ports := s.ports.set p { s.ports[p] with channel := some r, slot := some r } }

/-- The part after reset, in a mode. -/
def inMode (m : Mode) : State := { State.reset with drain := { State.reset.drain with mode := m } }

/-- A live transaction. -/
def desc (p : Fin 6) (t : Fin 8) (k : Fin 8) (l : Fin 16) : Descriptor :=
  { port := p, tag := t, kind := .read, address := 0#40, lenM1 := l, cls := k, colour := .green, group := 0,
    critical := false, deadline := 0, hint := 0, state := .queued, dtag := none, dataRef := none, ranOut := false }

/-- The same transaction at memory under tag `i`. -/
def atMemory (d : Descriptor) (i : Fin 32) : Descriptor := { d with state := .issued, dtag := some i }

/-- The part with one transaction live, with its loads and its initiator tag. -/
def oneLive (m : Mode) (d : Descriptor) : State :=
  let s := inMode m
  { s with
    loads := s.loads.add s.classRec d.port d.cls d.beats
    ports := s.ports.set d.port { s.ports[d.port] with tagLive := s.ports[d.port].tagLive.set d.tag true } }

/-- One transaction QUEUED. -/
def oneQueued (m : Mode) (d : Descriptor) : State :=
  { oneLive m d with queues := State.reset.queues.set d.cls [d] }

/-- One transaction ISSUED under tag `i`. -/
def oneIssued (m : Mode) (d : Descriptor) (i : Fin 32) : State :=
  { oneLive m d with tags := State.reset.tags.set i (.busy (atMemory d i)) }

/-- A rule that matches every request and claims as `a` says. -/
def anyRule (a : Action) : Rule := ⟨{ Pattern.reset with valid := true }, a⟩

/-- Rule 0 of bank 0 replaced. -/
def withRule (s : State) (r : Rule) : State := { s with rules := s.rules.set 0 (s.rules[0].set 0 r) }

/-- The state after a command. -/
def after (c : Instr) (s : State) : State :=
  match exec c s with
  | .next t => t
  | .fault _ => s
  | .refused _ => s

/-- A frame of whole bytes. -/
def fr (l : List Byte) : FrameBits := ⟨bitsOfBytes l, true⟩

/-- A frame that goes on. -/
def part (l : List Byte) : FrameBits := ⟨bitsOfBytes l, false⟩

/-- A frame of whole bytes and one more edge. -/
def oddFr (l : List Byte) : FrameBits := ⟨bitsOfBytes l ++ [true], true⟩

/-- The frame of a command whose bytes 1 and 2 are not examined. -/
def plain : FrameBits := fr [0#8, 0#8]

/-- The part in a reset. -/
def inReset (p : Phase) : State := { State.reset with phase := p }

/-! ### Ill-formed commands -/

theorem test_illFormed_write_without_data :
    (Instr.requestPresented 0 { req .write 0 0#37 3 0 false with data := [] }).wellFormed = false := by decide

theorem test_illFormed_read_with_data :
    (Instr.requestPresented 0 { req16 with data := [⟨0#64, 0#8⟩] }).wellFormed = false := by decide

theorem test_illFormed_completion_of_seventeen_beats :
    (Instr.completion 0 .okay (List.replicate 17 0#64)).wellFormed = false := by decide

theorem test_illFormed_meter_rows :
    (Instr.writeMeter (fr (List.replicate 9 0#8 ++ [1#8]))).wellFormed = false ∧
    (Instr.meterLoad (fr (List.replicate 10 0#8))).wellFormed = false := by decide

theorem test_illFormed_badFrame_that_names_a_row :
    (Instr.badFrame (fr [0x09#8, 0#8, 0#8])).wellFormed = false ∧
    (Instr.badFrame (fr [0x02#8, 0x0A#8])).wellFormed = false := by decide

theorem test_wellFormed_badFrame :
    (Instr.badFrame (fr [])).wellFormed = true ∧ (Instr.badFrame (fr [0x00#8])).wellFormed = true ∧
    (Instr.badFrame (fr [0x0F#8])).wellFormed = true ∧ (Instr.badFrame (fr [0x01#8])).wellFormed = true ∧
    (Instr.badFrame (fr [0x02#8, 0x0B#8])).wellFormed = true := by decide

/-! ### Frames (R171, R172) -/

theorem test_decodeFrame_words :
    decodeFrame false (fr [0x09#8, 0#8, 0#8]) = .drain plain ∧
    decodeFrame false (fr [0x01#8, 0x09#8, 0#8]) = .readEntry .opening .status (fr [0#8]) ∧
    decodeFrame false (fr [0x02#8, 0x07#8, 0#8]) = .writeEntry .counters (fr [0#8]) ∧
    decodeFrame true (fr [0x0E#8, 0#8, 0#8]) = .governorReset true plain ∧
    decodeFrame false (fr [0x0F#8]) = .badFrame (fr [0x0F#8]) := by decide

/-- The first bit of a byte is its most significant, and a trailing partial byte is none (R166). -/
theorem test_serial_bits :
    (⟨[true, false, false, false, false, false, true, false, true], true⟩ : FrameBits).bytes = [0x82#8] ∧
    bitsOfBytes [0x05#8] = [false, false, false, false, false, true, false, true] ∧
    decodeFrame false ⟨[false, false, false, false, true, false, false, true], true⟩ = .drain ⟨[], true⟩ := by decide

/-- A STATUS read is abandoned by a line reset after four bytes: SDO has carried DONE, two zeros and the sticky events, and the
reset leaves no frame and no error (R183). -/
theorem test_abandoned_frame :
    let s := { State.reset with events := ⟨0x81#8, 0x3FF#10⟩ }
    let t := after (.readEntry .opening .status (part [0#8, 0#8])) s
    let u := after .lineReset (after .tick t)
    t.out.sdo = some (bitsOfBytes [0x01#8, 0#8, 0#8, 0x81#8]) ∧ sdoDriven t = true ∧ u.out.sdo = t.out.sdo ∧
    u.mgmt.openFrame = none ∧ u.events.sticky = 0#8 ∧ (after (.endOfReset ⟨true, false, true, 0#6⟩) u).out.sdo = none := by
  decide +kernel

/-- The lengths of 10.9: STATUS 16, RULE_ACTION 15, POP_CAPTURE 15. -/
theorem test_lengths : Table.status.frameLength = 16 ∧ Table.ruleAction.frameLength = 15 ∧
    Command.popCapture.frameLength = 15 := by decide

/-! ### Worked examples of chapters 1 to 4 -/

/-- The examples of R6. -/
theorem test_boundary_examples :
    crossesPage (req .read 0 0x1FF#37 0 0 false) = false ∧ crossesPage (req .read 0 0x1FF#37 1 0 false) = true ∧
    crossesPage (req .read 0 0x1F0#37 15 0 false) = false ∧ crossesPage (req .read 0 0x1F1#37 15 0 false) = true ∧
    crossesPage (req .read 0 0x2468AC00#37 15 0 false) = false := by decide +kernel

/-- Take 1 of 1.6: ports 1, 3 and 4 hold requests and port 3's tag is LIVE. -/
def ports134 : State :=
  let s := slotted (slotted (slotted State.reset 1 req16) 3 (req .read 2 0#37 0 0 false)) 4 req16
  { s with ports := s.ports.set 3 { s.ports[3] with tagLive := s.ports[3].tagLive.set 2 true } }

theorem test_grant_example :
    grant ports134 = some 1 ∧ grant { ports134 with lastGranted := 1 } = some 4 ∧
    grant { ports134 with lastGranted := 4 } = some 1 := by decide +kernel

/-- The four rules of 2.8. -/
def rules28 : Vector Rule 48 :=
  (((Vector.replicate 48 Rule.reset).set 0
    ⟨{ Pattern.reset with valid := true, hasPorts := true, ports := 1#6, hasHints := true, hints := 8#4 },
      { Action.reset with cls := ⟨.set, 1⟩, disposition := ⟨.set, .critical⟩ }⟩).set 1
    ⟨{ Pattern.reset with valid := true, hasAddr := true, addr := .masked 0x40000000#40 0x00F#10, hasPriv := true },
      { Action.reset with group := ⟨.set, 20⟩, disposition := ⟨.set, .deny⟩, notify := ⟨.set, true⟩ }⟩).set 2
    ⟨{ Pattern.reset with valid := true, hasKind := true, hasBeats := true, beatsMin := 8, beatsMax := 16 },
      { Action.reset with cls := ⟨.set, 3⟩, meter := ⟨.set, some 4⟩, notify := ⟨.default, false⟩ }⟩ |>.set 3
    (anyRule { Action.reset with cls := ⟨.set, 5⟩, group := ⟨.set, 7⟩, notify := ⟨.set, true⟩ })

def state28 : State :=
  { inMode .enforce with
    rules := State.reset.rules.set 0 rules28
    portRec := (State.reset.portRec.set 0 { PortRecord.reset 0 with defClass := 2, defMeter := some 0 }).set 2
      { PortRecord.reset 2 with defClass := 6 } }

theorem test_requestA :
    resolve state28 0 (req .read 0 0x8000020#37 15 3 true) =
      { cls := 1, meter := some 4, group := 7, disposition := .critical, capture := none, deadline := 0,
        hintSet := none } := by decide +kernel

theorem test_requestB :
    resolve state28 2 (req .write 0 0x8000400#37 3 0 false) =
      { cls := 5, meter := none, group := 20, disposition := .deny, capture := some 1, deadline := 0,
        hintSet := none } := by decide +kernel

theorem test_requestC :
    resolve state28 2 (req .write 0 0x20000000#37 1 1 true) =
      { cls := 5, meter := none, group := 7, disposition := .pass, capture := some 3, deadline := 0,
        hintSet := none } := by decide +kernel

/-- Request B is denied, counted and captured. -/
theorem test_takeB :
    let t := after .take (slotted state28 2 (req .write 3 0x8000400#37 3 0 false))
    t.out.responses[2] = [⟨3, .denied .rule, none⟩] ∧ counterValue t 20 .denied = 1#32 ∧
    t.captures = [⟨0, 1, 2, 3, .write, 0x40002000#40, 3, 5, none, .deniedRule⟩] ∧ t.loads.liveCount = 0 := by
  decide +kernel

/-- Meter 4 of 3.7, with tokens `c` and `e`. -/
def meter37 (c e : Nat) : Meter := ⟨256, 512, 384, c, e⟩

theorem test_meter_burst_colours :
    (meter37 512 384).colour .green 128 = .green ∧ (meter37 128 384).colour .green 128 = .green ∧
    (meter37 0 384).colour .green 128 = .yellow ∧ (meter37 256 256).colour .green 64 = .green ∧
    (meter37 128 384).charge .green 128 = meter37 0 384 ∧ (meter37 0 384).charge .yellow 128 = meter37 0 256 := by
  decide

theorem test_meter_burst_refills :
    (meter37 0 256).refill = meter37 256 256 ∧ (meter37 192 256).refill = meter37 448 256 ∧
    (meter37 448 256).refill = meter37 512 384 ∧ (meter37 512 384).refill = meter37 512 384 ∧
    (⟨256, 96, 1024, 96, 256⟩ : Meter).refill = ⟨256, 96, 1024, 96, 512⟩ := by decide

/-- The meter write during the burst clips C from 128 to 96. -/
theorem test_meter_write_clips :
    (after (.writeMeter (fr ([4#8] ++ leBytes 2 256 ++ leBytes 3 96 ++ leBytes 3 1024 ++ List.replicate 7 0#8)))
      { State.reset with meters := State.reset.meters.set 4 (meter37 128 384) }).meters[4] =
      ⟨256, 96, 1024, 96, 384⟩ := by decide +kernel

/-- The five takes of 3.8. -/
theorem test_colour_aware :
    (⟨0, 512, 512, 100, 50⟩ : Meter).colour .green 64 = .green ∧
    (⟨0, 512, 512, 100, 50⟩ : Meter).colour .yellow 64 = .red ∧
    (⟨0, 512, 512, 100, 50⟩ : Meter).colour .red 64 = .red ∧
    (⟨0, 512, 512, 40, 100⟩ : Meter).colour .green 64 = .yellow ∧
    (⟨0, 512, 512, 40, 100⟩ : Meter).colour .yellow 64 = .yellow := by decide

/-- The settings of 4.9, with class 2's and class 5's occupancies, port 3's load and a register value. -/
def state49 (occ2 occ5 load3 : Nat) (lot : BitVec 16) : State :=
  let s := inMode .enforce
  let recs := ((s.classRec.set 1 { ClassRecord.reset with res := 64 }).set 2 { ClassRecord.reset with res := 64 }).set 5
    { ClassRecord.reset with thr := ⟨.reset, ⟨32, 96⟩, ⟨0, 0⟩⟩ }
  let occ := (s.loads.occ.set 2 occ2).set 5 occ5
  { s with
    classRec := recs
    portRec := s.portRec.set 3 { PortRecord.reset 3 with limit := 72 }
    loads := { liveCount := 7, totalLoad := occ2 + occ5, occ := occ,
               portLoad := (s.loads.portLoad.set 1 occ2).set 3 load3, sharedLoad := sharedLoadOf occ recs,
               sharedCapacity := sharedCapacityOf recs }
    lottery := lot }

theorem test_decisions :
    enforceDecision (state49 48 60 60 0x6D2B#16) 1 16 2 .green false = (.accept, 0x6D2B#16) ∧
    enforceDecision (state49 64 60 60 0x6D2B#16) 1 16 2 .green false = (.accept, 0x6D2B#16) ∧
    enforceDecision (state49 80 60 60 0x6D2B#16) 3 8 5 .yellow false = (.accept, 0xDA56#16) ∧
    enforceDecision (state49 80 68 68 0xDA56#16) 3 8 5 .yellow false = (.refuse .portLimit, 0xDA56#16) ∧
    enforceDecision (state49 80 68 68 0xDA56#16) 3 4 5 .red true = (.accept, 0xDA56#16) ∧
    enforceDecision (state49 80 72 72 0xDA56#16) 0 8 5 .yellow false = (.refuse .lottery, 0xB4AC#16) ∧
    enforceDecision (state49 80 72 72 0xB4AC#16) 0 8 5 .red false = (.refuse .threshold, 0xB4AC#16) := by
  decide +kernel

/-- The pairs 32 and 96, and 10 and 11, of R77. -/
theorem test_bands :
    let g := GlobalRecord.reset
    levelOf g ⟨32, 96⟩ 31 = .pass ∧ levelOf g ⟨32, 96⟩ 32 = .band 1 ∧ levelOf g ⟨32, 96⟩ 64 = .band 1 ∧
    levelOf g ⟨32, 96⟩ 65 = .band 3 ∧ levelOf g ⟨32, 96⟩ 96 = .band 3 ∧ levelOf g ⟨32, 96⟩ 97 = .reject ∧
    levelOf g ⟨10, 11⟩ 10 = .band 1 ∧ levelOf g ⟨10, 11⟩ 11 = .band 3 ∧ levelOf g ⟨10, 10⟩ 9 = .pass ∧
    levelOf g ⟨10, 10⟩ 10 = .reject := by decide

/-! ### Worked examples of chapters 5 to 10 -/

/-- Port 2 of 5.2, in mode ENFORCE, with a load and the tokens of meter 6. -/
def state52 (load c : Nat) (latch pace : Bool) : State :=
  let s := inMode .enforce
  { s with
    portRec := s.portRec.set 2 { PortRecord.reset 2 with
      defMeter := some 6, holdEn := true, holdOn := 48, holdOff := 24, paceEn := true, paceMeter := 6, paceOn := 128,
      paceOff := 384 }
    meters := s.meters.set 6 ⟨192, 1024, 0, c, 0⟩
    hold := { s.hold with port := s.hold.port.set 2 latch, pace := s.hold.pace.set 2 pace }
    loads := { s.loads with liveCount := 2, totalLoad := load, occ := s.loads.occ.set 0 load,
                            portLoad := s.loads.portLoad.set 2 load, sharedLoad := load } }

/-- The third admission turns both latches ON and raises HOLD_CHANGE. -/
theorem test_hold_third_take :
    let t := after .take (slotted (state52 32 144 false false) 2 req16)
    t.hold.port[2] = true ∧ t.hold.pace[2] = true ∧ held t 2 = true ∧ t.isRaised .holdChange = true ∧
    t.meters[6].c = 16 ∧ t.loads.portLoad[2] = 48 := by decide +kernel

/-- The tick that releases the port. -/
theorem test_hold_releasing_tick :
    let t := after .tick (state52 16 208 false true)
    t.hold.pace[2] = false ∧ held t 2 = false ∧ t.isRaised .holdChange = true ∧ t.meters[6].c = 400 := by
  decide +kernel

/-- The queues of 6.7 with the deficits of classes 3 and 5 and the pointer. -/
def state67 (q1 q3 q5 q7 : List (Fin 16)) (d3 d5 : Nat) (ptr : Fin 8) : State :=
  let mk (k : Fin 8) (l : List (Fin 16)) : List Descriptor := l.map (desc 0 0 k)
  let rec' (m : SchedMode) (w : Nat) : ClassRecord := { ClassRecord.reset with mode := m, weight := w }
  { State.reset with
    classRec := (((State.reset.classRec.set 1 (rec' .strictHigh 1)).set 3 (rec' .weighted 24)).set 5
      (rec' .weighted 8)).set 7 (rec' .strictLow 1)
    queues := (((State.reset.queues.set 1 (mk 1 q1)).set 3 (mk 3 q3)).set 5 (mk 5 q5)).set 7 (mk 7 q7)
    sched := ⟨ptr, (State.reset.sched.deficit.set 3 d3).set 5 d5⟩ }

/-- What an issue did: the queue it took from, the two deficits and the pointer. -/
def picked (s : State) : Option (Fin 8 × Nat × Nat × Fin 8) :=
  (chooseClass s).map fun c => (c.1, c.2.deficit[3], c.2.deficit[5], c.2.roundPtr)

theorem test_weighted_round_first_half :
    picked (state67 [] [15, 15, 7] [3, 3, 15] [7] 0 0 0) = some (3, 8, 8, 3) ∧
    picked (state67 [] [15, 7] [3, 3, 15] [7] 8 8 3) = some (5, 32, 4, 5) ∧
    picked (state67 [] [15, 7] [3, 15] [7] 32 4 5) = some (5, 32, 0, 5) ∧
    picked (state67 [] [15, 7] [15] [7] 32 0 5) = some (3, 16, 8, 3) := by decide +kernel

theorem test_weighted_round_second_half :
    picked (state67 [1] [7] [15] [7] 16 8 3) = some (1, 16, 8, 3) ∧
    picked (state67 [] [7] [15] [7] 16 8 3) = some (3, 0, 8, 4) ∧
    picked (state67 [] [] [15] [7] 0 8 4) = some (5, 0, 0, 6) ∧
    picked (state67 [] [] [] [7] 0 0 6) = some (7, 0, 0, 6) := by decide +kernel

/-- A tick expires an ISSUED descriptor whose count is 1: FAULT/EXPIRED, an ORPHAN tag, nothing live. -/
theorem test_tick_expires :
    let t := after .tick (oneIssued .bypass { desc 2 5 0 3 with deadline := 1 } 7)
    t.out.responses[2] = [⟨5, .fault .expired, none⟩] ∧
    t.tags[7] = .orphan ⟨.expired, 2, 5, .read, 0#40, 3⟩ ∧ t.loads.liveCount = 0 ∧
    t.ports[2].tagLive[5] = false ∧ counterValue t 0 .faulted = 1#32 ∧ t.isRaised .expired = true := by decide +kernel

/-- The example of R149: 7FFFFFC0h and 128. -/
theorem test_half_range :
    let s := { State.reset with counters := { State.reset.counters with
      groups := State.reset.counters.groups.set 3 (State.reset.counters.groups[3].set 1 0x7FFFFFC0#32) } }
    let t := count s 3 .admittedBytes 128
    counterValue t 3 .admittedBytes = 0x80000040#32 ∧ t.counters.half[3] = true ∧ t.isRaised .counterHalf = true := by
  decide +kernel

/-- The examples of R180. -/
theorem test_action_bytes :
    (actionBytes { Action.reset with cls := ⟨.set, 0⟩, disposition := ⟨.set, .pass⟩ }).take 2 = [0x41#8, 0x00#8] ∧
    (actionBytes { Action.reset with notify := ⟨.default, false⟩ }).take 2 = [0x00#8, 0x02#8] ∧
    actionBytes Action.reset = List.replicate 12 0#8 ∧
    actionOk ([0#8, 0#8, 0#8, 0x10#8] ++ List.replicate 8 0#8) = false := by decide

/-- STATUS after reset: POWER_ON alone is set. -/
theorem test_status_bytes :
    statusBytes State.reset = [0#8, 0#8, 0#8, 0#8, 0#8, 0#8, 0#8, 0#8, 0#8, 1#8, 0#8, 0#8, 0#8] := by decide +kernel

/-- A capture record's bytes (R181): rule 1, port 2, tag 3, a WRITE of 4 beats, class 5, DENIED/RULE. -/
theorem test_capture_bytes :
    captureBytes ⟨0, 1, 2, 3, .write, 0x40002000#40, 3, 5, none, .deniedRule⟩ =
      [1#8, 0x32#8, 1#8, 4#8, 0x00#8, 0x20#8, 0x00#8, 0x40#8, 0x00#8, 5#8, 0#8, 5#8] := by decide

/-- Frames 2, 3, 4 and 6 of 10.9. -/
theorem test_results :
    (after (.writeRuleAction (fr (3#8 :: List.replicate 12 0#8))) State.reset).mgmt.result = .refused ∧
    (after (.writeRuleAction (fr (0x83#8 :: List.replicate 11 0#8))) State.reset).mgmt.result = .badFrame ∧
    (after (.writeRuleAction (fr (0x83#8 :: List.replicate 12 0#8))) State.reset).mgmt.result = .done ∧
    (after (.popCapture .opening (fr (List.replicate 14 0#8))) State.reset).mgmt.result = .empty := by decide +kernel

/-- Bring-up (11.2): a part with the strap high is DRAINED with COMMAND, and RELEASE starts it. -/
theorem test_strap :
    let s := after (.endOfReset ⟨true, true, false, 0#6⟩) (inReset .powerOnReset)
    s.drain = ⟨.bypass, .drained, true, false⟩ ∧ drainedLine s = true ∧ s.events.sticky = 0#8 ∧
    (after (.release plain) s).drain = ⟨.bypass, .running, false, false⟩ := by decide +kernel


/-! ### What meets the hypotheses of each statement -/

theorem witness_StepRunsFrontCommand :
    (State.reset.withFront .take).pending = .take :: [] := rfl

theorem witness_EmptyQueueCountsOnePeriod :
    State.reset.pending = [] ∧ State.reset.phase = .running ∧
    State.reset.tickCounter + 1 < State.reset.glob.tickPeriod ∧
    (let s := { State.reset with tickCounter := 998 }; s.tickCounter + 1 < s.glob.tickPeriod) ∧
    (let s := { State.reset with tickCounter := 999 }; s.glob.tickPeriod ≤ s.tickCounter + 1) ∧
    (inReset .lineReset).phase ≠ .running := by decide +kernel

theorem witness_PresentationCaptured :
    req16.dataFits = true ∧ (req .write 7 0#37 15 0 false).dataFits = true ∧ (req .write 7 0#37 0 0 false).dataFits = true ∧
    State.reset.phase = .running ∧ State.reset.ports[5].slot = none ∧ (inReset .powerOnReset).phase ≠ .running ∧
    (slotted State.reset 0 req16).ports[0].slot ≠ none := by decide +kernel

theorem witness_GrantIsFirstEligible :
    (inReset .lineReset).phase ≠ .running ∧ (∀ p : Fin 6, eligible State.reset p = false) ∧
    eligible (slotted State.reset 5 req16) 5 = true := by decide +kernel

/-- Two beats from 0FF8h: the least excess over a page. -/
theorem witness_TakeDeniesBoundary :
    let r := req .read 7 0x1FF#37 1 0 false
    let s := slotted State.reset 5 r
    s.phase = .running ∧ grant s = some 5 ∧ s.ports[5].slot = some r ∧ 4096 < r.address.toNat % 4096 + r.beats * 8 := by
  decide +kernel

/-- A request that ends with its page, and the two loads about the pool's bound. -/
theorem witness_TakeInBypass :
    let r := req .write 0 0x1F0#37 15 0 false
    let s := slotted State.reset 0 r
    let full : State := { s with loads := { s.loads with liveCount := 64 } }
    let past : State := { s with loads := { s.loads with totalLoad := 1009 } }
    let fits : State := { s with loads := { s.loads with totalLoad := 1008, liveCount := 63 } }
    (s.phase = .running ∧ r.address.toNat % 4096 + r.beats * 8 ≤ 4096 ∧ s.drain.mode = .bypass) ∧
    (grant full = some 0 ∧ full.loads.liveCount = 64) ∧
    (grant past = some 0 ∧ 1024 < past.loads.totalLoad + r.beats) ∧
    (grant fits = some 0 ∧ fits.loads.liveCount ≠ 64 ∧ fits.loads.totalLoad + r.beats ≤ 1024) := by decide +kernel

theorem witness_TakeDeniedByRule :
    let r := req .write 3 0x8000400#37 3 0 false
    let s := slotted state28 2 r
    s.phase = .running ∧ grant s = some 2 ∧ s.ports[2].slot = some r ∧
    r.address.toNat % 4096 + r.beats * 8 ≤ 4096 ∧ s.drain.mode = .enforce ∧ (resolve s 2 r).disposition = .deny := by
  decide +kernel

/-- Takes d, f and g of 4.9, and one that finds 64 transactions live. -/
theorem witness_TakeRefused :
    let ask (s : State) (p : Fin 6) (k : Fin 8) (c : Fin 4) : State :=
      slotted { s with portRec := s.portRec.set p { s.portRec[p] with
        defClass := k, colourAware := true, colourMap := #v[.green, .yellow, .red, .red] } } p (req .read 0 0#37 7 c false)
    let why (s : State) (p : Fin 6) (c : Fin 4) : Decision × BitVec 16 :=
      let r := req .read 0 0#37 7 c false
      enforceDecision s p r.beats (resolve s p r).cls (colourAt s p r (resolve s p r).meter)
        ((resolve s p r).disposition == .critical)
    let d := ask (state49 80 68 68 0xDA56#16) 3 5 1
    let f := ask (state49 80 72 72 0xDA56#16) 0 5 1
    let g := ask (state49 80 72 72 0xB4AC#16) 0 5 2
    let full := ask { inMode .enforce with loads := { Loads.reset with liveCount := 64 } } 5 0 0
    (grant d = some 3 ∧ (resolve d 3 (req .read 0 0#37 7 1 false)).disposition ≠ .deny ∧
      why d 3 1 = (.refuse .portLimit, 0xDA56#16)) ∧
    (grant f = some 0 ∧ why f 0 1 = (.refuse .lottery, 0xB4AC#16)) ∧
    (grant g = some 0 ∧ why g 0 2 = (.refuse .threshold, 0xB4AC#16)) ∧
    (grant full = some 5 ∧ full.drain.mode = .enforce ∧ why full 5 0 = (.refuse .pool, 0x6D2B#16)) := by decide +kernel

theorem witness_TakeAdmitted :
    let s := slotted (state52 32 144 false false) 2 req16
    let res := resolve s 2 req16
    s.phase = .running ∧ grant s = some 2 ∧ s.ports[2].slot = some req16 ∧
    req16.address.toNat % 4096 + req16.beats * 8 ≤ 4096 ∧ s.drain.mode = .enforce ∧ res.disposition ≠ .deny ∧
    enforceDecision s 2 req16.beats res.cls (colourAt s 2 req16 res.meter) (res.disposition == .critical) =
      (.accept, 0x6D2B#16) := by decide +kernel

/-- A port with each pre-colour, and tokens of exactly the size. -/
theorem witness_ColourFromMeter :
    let r (h : Fin 4) := req .read 0 0#37 15 h false
    let rec0 : PortRecord := { PortRecord.reset 0 with colourAware := true, colourMap := #v[.green, .green, .yellow, .red] }
    let s := { State.reset with
      portRec := State.reset.portRec.set 0 rec0, meters := State.reset.meters.set 15 ⟨0, 128, 128, 128, 128⟩ }
    s.portRec[1].colourAware = false ∧ s.portRec[0].colourAware = true ∧ (r 0).beats * 8 ≤ s.meters[15].c ∧
    s.portRec[0].colourMap[(r 0).hint] = .green ∧ s.portRec[0].colourMap[(r 2).hint] = .yellow ∧
    s.portRec[0].colourMap[(r 3).hint] = .red := by decide +kernel

theorem witness_ChargeByColour :
    let s (c e : Nat) : State := { State.reset with meters := State.reset.meters.set 15 ⟨0, 128, 128, c, e⟩ }
    (0 : Fin 16) ≠ 15 ∧ colourAt (s 128 0) 5 req16 (some 15) = .green ∧ colourAt (s 127 128) 5 req16 (some 15) = .yellow := by
  decide +kernel

/-- Class 2 of 4.9 about its reservation, the shared area and the pool at their bounds. -/
theorem witness_EnforceDecisionOrder :
    let s := state49 48 60 60 0x6D2B#16
    let at' (total live shared : Nat) : Loads := { s.loads with totalLoad := total, liveCount := live, sharedLoad := shared }
    let full (l : Loads) (n : Nat) : Bool := decide (l.liveCount = 64 ∨ 1024 < l.totalLoad + n)
    let x (occ res n : Nat) : Nat := (occ + n - res) - (occ - res)
    full (at' 0 64 0) 1 = true ∧ full (at' 1009 7 0) 16 = true ∧ full (at' 1008 63 0) 16 = false ∧
    880 + x 60 0 16 ≤ s.loads.sharedCapacity ∧ ¬881 + x 60 0 16 ≤ s.loads.sharedCapacity ∧
    s.loads.occ[2] + 16 ≤ s.classRec[2].res ∧ ¬s.loads.occ[2] + 17 ≤ s.classRec[2].res ∧
    s.portRec[3].limit < s.loads.portLoad[3] + 13 ∧ ¬s.portRec[3].limit < s.loads.portLoad[3] + 12 := by decide +kernel

theorem witness_ThresholdLevels :
    let lv (k : Fin 8) (c : Colour) (s : State) : Level := levelOf s.glob (s.classRec[k].thr.pick c) s.loads.occ[k]
    let gl (c : Colour) (s : State) : Level := levelOf s.glob (s.glob.thr.pick c) s.loads.sharedLoad
    let s := state49 80 60 60 0#16
    let narrow : State := { s with glob := { s.glob with thr := ⟨.reset, ⟨32, 96⟩, ⟨0, 0⟩⟩ } }
    (lv 5 .yellow s = .band 1 ∧ gl .yellow s = .pass) ∧ (lv 5 .red s = .reject ∧ gl .red s = .pass) ∧
    (lv 5 .green s = .pass ∧ gl .green s = .pass) ∧ (lv 0 .yellow narrow = .pass ∧ gl .yellow narrow = .band 3) ∧
    (lv 5 .yellow narrow = .band 1 ∧ gl .yellow narrow = .band 3) ∧ (lv 0 .red narrow = .pass ∧ gl .red narrow = .reject) := by
  decide +kernel

theorem witness_LotteryRegisterShift : (0x8000#16 : BitVec 16) ≠ 0#16 ∧ (14 : Nat) < 15 := by decide

theorem witness_LatchHysteresis :
    (inMode .bypass).drain.mode = .bypass ∧ (inMode .enforce).drain.mode = .enforce ∧
    evalPort (state52 48 400 false false) 2 = true ∧ evalPort (state52 47 400 false false) 2 = false ∧
    evalPort (state52 25 400 true false) 2 = true ∧ evalPort (state52 24 400 true false) 2 = false ∧
    evalPace (state52 0 127 false false) 2 = true ∧ evalPace (state52 0 128 false false) 2 = false ∧
    evalPace (state52 0 383 false true) 2 = true ∧ evalPace (state52 0 384 false true) 2 = false := by decide +kernel

theorem witness_HoldChangeExactly :
    clearsEvents .take = false ∧ ∃ t, exec .take (slotted (state52 32 144 false false) 2 req16) = .next t :=
  ⟨rfl, _, rfl⟩

/-- The part with a drain under way, from COMMAND, LINE or both. -/
def draining (command line : Bool) (q : QuiesceMode) : State :=
  let s := oneQueued .bypass (desc 0 0 0 0)
  { s with drain := ⟨.bypass, .draining, command, line⟩, glob := { s.glob with quiesceMode := q } }

/-- The part drained by COMMAND. -/
def drained : State := { State.reset with drain := ⟨.bypass, .drained, true, false⟩ }

theorem witness_DrainAndRelease :
    let busy := oneQueued .bypass (desc 0 0 0 0)
    let held' := draining true true .levelLow
    let free := draining true true .falling
    (OpStateAgrees busy ∧ busy.drain.opState = .running ∧ busy.loads.liveCount ≠ 0) ∧
    (OpStateAgrees State.reset ∧ State.reset.loads.liveCount = 0) ∧
    (OpStateAgrees held' ∧ held'.drain.opState ≠ .running ∧ held'.drain.line = true ∧ held'.glob.quiesceMode = .levelLow) ∧
    (OpStateAgrees free ∧ free.glob.quiesceMode ≠ .levelLow) ∧ drained.drain.line = false ∧
    frameReady busy = true ∧ frameReady held' = true ∧ frameReady free = true ∧ endsAt plain 1 3 := by
  unfold OpStateAgrees
  decide +kernel

theorem witness_QuiesceEdge :
    let off := oneQueued .bypass (desc 0 0 0 0)
    let low := { off with glob := { off.glob with quiesceMode := .levelLow } }
    let empty := { State.reset with glob := low.glob }
    OpStateAgrees off ∧ OpStateAgrees low ∧ OpStateAgrees empty ∧ OpStateAgrees (draining true true .levelLow) ∧
    OpStateAgrees (draining false true .levelLow) ∧ OpStateAgrees (draining true false .rising) ∧
    (inReset .lineReset).phase ≠ .running ∧ OpStateAgrees (inReset .lineReset) ∧
    low.drain.opState = .running ∧ low.loads.liveCount ≠ 0 ∧ empty.loads.liveCount = 0 ∧
    (draining true false .rising).drain.opState ≠ .running ∧ (draining true true .levelLow).drain.command = true ∧
    (draining false true .levelLow).drain.command = false := by
  unfold OpStateAgrees
  decide +kernel

theorem witness_SetModeCommand :
    let f (b : Byte) : FrameBits := fr [0#8, 0#8, b]
    frameReady drained = true ∧ endsAt (f 2#8) 1 4 ∧ byteAt (f 2#8).bytes 2 ≠ 0#8 ∧ byteAt (f 2#8).bytes 2 ≠ 1#8 ∧
    byteAt (f 0#8).bytes 2 = modeByte .bypass ∧ byteAt (f 1#8).bytes 2 = modeByte .enforce ∧
    State.reset.drain.opState ≠ .drained ∧ drained.drain.opState = .drained ∧ drained.drain.mode = .bypass ∧
    ({ drained with drain := { drained.drain with mode := .enforce } } : State).drain.mode ≠ .bypass := by decide +kernel

theorem witness_DrainDoneExactly :
    let s := { oneIssued .bypass (desc 0 0 0 0) 31 with drain := ⟨.bypass, .draining, true, false⟩ }
    OpStateAgrees s ∧ clearsEvents (.completion 31 .okay []) = false ∧
    (after (.completion 31 .okay []) s).drain.opState = .drained := by
  unfold OpStateAgrees
  decide +kernel

theorem witness_IssueHandsOver :
    let s := oneQueued .bypass (desc 0 0 0 0)
    let mid : State := { s with tags := .ofFn fun t => if t = 31 then .free else .orphan ⟨.reset, 0, 0, .read, 0#40, 0⟩ }
    let stuck : State := { s with tags := .replicate 32 (.orphan ⟨.reset, 0, 0, .read, 0#40, 0⟩) }
    (∀ t : Fin 32, stuck.tags[t].isFree = false) ∧ (∀ k : Fin 8, State.reset.queues[k] = []) ∧
    mid.phase = .running ∧ mid.tags[31] = .free ∧ (∀ u < (31 : Fin 32), mid.tags[u].isFree = false) ∧
    (chooseClass mid).isSome = true ∧ (chooseClass mid).map (·.1) = some 0 ∧ mid.queues[0] = [desc 0 0 0 0] := by
  decide +kernel

theorem witness_SchedulerChoice :
    let s := state67 [1] [15] [] [7] 0 0 0
    let w := state67 [] [15] [] [7] 0 0 0
    let l := state67 [] [] [] [7] 0 0 0
    (∀ k : Fin 8, 1 ≤ s.classRec[k].weight) ∧ (s.classRec[1].mode = .strictHigh ∧ s.queues[1] ≠ []) ∧
    ((∀ k : Fin 8, ¬(w.classRec[k].mode = .strictHigh ∧ w.queues[k] ≠ [])) ∧ w.classRec[3].mode = .weighted ∧
      w.queues[3] ≠ []) ∧
    ((∀ k : Fin 8, ¬(l.classRec[k].mode = .strictHigh ∧ l.queues[k] ≠ [])) ∧
      (∀ k : Fin 8, ¬(l.classRec[k].mode = .weighted ∧ l.queues[k] ≠ [])) ∧ l.classRec[7].mode = .strictLow ∧
      l.queues[7] ≠ []) := by decide +kernel

theorem witness_DeficitAfterWeightedIssue :
    let s := state67 [] [15, 7] [3] [] 16 4 3
    s.queues[3] = desc 0 0 3 15 :: [desc 0 0 3 7] ∧ s.queues[5] = [desc 0 0 5 3] := by decide +kernel

theorem witness_CompletionOkay :
    let s := oneIssued .enforce (desc 5 7 7 15) 31
    s.phase = .running ∧ s.tags[31] = .busy (atMemory (desc 5 7 7 15) 31) := by decide +kernel

theorem witness_CompletionError :
    let s := oneIssued .bypass (desc 0 0 0 0) 0
    s.phase = .running ∧ s.tags[0] = .busy (atMemory (desc 0 0 0 0) 0) := by decide +kernel

theorem witness_CompletionLateOrStray :
    let o : OrphanRecord := ⟨.expired, 0, 0, .read, 0#40, 0⟩
    let s : State := { State.reset with tags := State.reset.tags.set 31 (.orphan o) }
    s.phase = .running ∧ s.tags[31] = .orphan o ∧ s.tags[0] = .free ∧ (inReset .lineReset).phase ≠ .running := by
  decide +kernel

theorem witness_TickRefillsMeters :
    let s (c : Nat) : State := { State.reset with meters := State.reset.meters.set 0 ⟨256, 512, 384, c, 0⟩ }
    (s 0).phase = .running ∧ (s 256).meters[0].c + (s 256).meters[0].cir ≤ (s 256).meters[0].cbs ∧
    (s 257).meters[0].cbs < (s 257).meters[0].c + (s 257).meters[0].cir := by decide +kernel

theorem witness_TickCountsDownAndExpires :
    let s := oneIssued .enforce { desc 2 5 0 3 with deadline := 1 } 7
    s.phase = .running ∧ NoneRanOut s := by
  unfold NoneRanOut
  decide +kernel

theorem witness_ExpiryCommand :
    let s := oneQueued .enforce { desc 2 5 0 3 with ranOut := true }
    s.phase = .running ∧ expiring s ≠ [] := by decide +kernel

theorem witness_ResetsHoldThePart :
    State.reset.phase = .running ∧ (inReset .powerOnReset).phase = .powerOnReset ∧
    (inReset .lineReset).phase = .lineReset := ⟨rfl, rfl, rfl⟩

theorem witness_EndOfResetCommands :
    (inReset .lineReset).phase ≠ .running ∧ (⟨true, true, true, 63#6⟩ : ResetEnd).resetNHigh = true ∧
    (inReset .powerOnReset).phase = .powerOnReset ∧ (⟨false, false, false, 0#6⟩ : ResetEnd).resetNHigh = false ∧
    State.reset.phase = .running := by decide

theorem witness_GovernorResetCommand : frameReady State.reset = true ∧ endsAt plain 1 3 := by decide +kernel

theorem witness_CountAddsAndCrosses :
    State.reset.glob.statsEnable = true ∧ State.reset.glob.enables[23].getLsbD (Counter.markedRed).idx.val = true := by
  decide +kernel

theorem witness_CaptureAppendsOrLoses :
    let res := resolve state28 2 (req .write 0 0x20000000#37 1 1 true)
    let c : CaptureRecord := ⟨0, 3, 2, 0, .write, 0#40, 0, 0, none, .deniedRule⟩
    (resolve State.reset 0 req16).capture = none ∧ res.capture = some 3 ∧
    ({ state28 with captures := List.replicate 15 c } : State).captures.length < 16 ∧
    16 ≤ ({ state28 with captures := List.replicate 16 c } : State).captures.length := by decide +kernel

/-- The part with one capture record. -/
def captured : State := { State.reset with captures := [⟨0, 3, 2, 0, .write, 0#40, 0, 0, none, .deniedRule⟩] }

theorem witness_PopCaptureFrames :
    let s := after (.popCapture .opening (part [0#8, 0#8])) captured
    let f := fr (List.replicate 14 0#8)
    frameReady captured = true ∧ (part [0#8, 0#8]).ended = false ∧ 16 ≤ (part [0#8, 0#8]).bits.length ∧
    (⟨List.replicate 15 false, false⟩ : FrameBits).bits.length < 16 ∧ endsAt f 1 15 ∧
    (oddFr (List.replicate 14 0#8)).ended = true ∧ (oddFr (List.replicate 14 0#8)).edges 1 ≠ 8 * 15 ∧
    State.reset.captures = [] ∧ captured.captures ≠ [] ∧ s.phase = .running ∧
    openSnapshot s = some (popSnapshot captured) ∧ (popSnapshot captured).source = .popCapture ∧ frameReady s = false ∧
    openSnapshot State.reset = none ∧ (inReset .lineReset).phase ≠ .running := by decide +kernel

theorem witness_ClearCommands :
    let g (b : Byte) := fr [b, b]
    let e (b : Byte) := fr [0#8, 0#8, 0xFF#8, 0xFF#8, 0xFF#8, 0xFF#8, b]
    frameReady State.reset = true ∧ endsAt (g 23#8) 1 3 ∧ byteAt (g 23#8).bytes 1 = BitVec.ofNat 8 23 ∧
    24 ≤ (byteAt (g 24#8).bytes 1).toNat ∧ endsAt (e 0#8) 1 8 ∧ byteAt (e 0#8).bytes 6 = 0#8 ∧
    byteAt (e 1#8).bytes 6 ≠ 0#8 := by decide +kernel

/-- A DRAIN frame of one byte too few, one with an odd bit, a frame of no edges, one that goes on, and a frame that comes before
CS_N has gone high. -/
theorem witness_FramesDiscardedOrIgnored :
    let wait : State := { State.reset with mgmt := { State.reset.mgmt with awaitCsHigh := true } }
    frameReady State.reset = true ∧ (Instr.drain (fr [0#8])).wellFormed = true ∧
    encodeFrame (.drain (fr [0#8])) = some (fr [0x09#8, 0#8]) ∧ (fr [0x09#8, 0#8]).ended = true ∧
    rightLength (fr [0x09#8, 0#8]) = some 3 ∧ (fr [0x09#8, 0#8]).edges 0 ≠ 8 * 3 ∧
    (oddFr [0x09#8, 0#8, 0#8]).edges 0 ≠ 8 * 3 ∧ (Instr.badFrame (fr [])).wellFormed = true ∧ rightLength (fr []) = none ∧
    encodeFrame (.drain (part [])) = some (part [0x09#8]) ∧ (part [0x09#8]).ended = false ∧ frameReady wait = false ∧
    frameReady (inReset .lineReset) = false := by decide +kernel

theorem witness_FrameShiftsOut :
    let i : Instr := .readEntry .opening .status (fr (List.replicate 14 0#8))
    encodeFrame i = some (fr (0x01#8 :: 0x09#8 :: List.replicate 14 0#8)) ∧ frameReady State.reset = true ∧
    (readDataOf State.reset i).length = 13 ∧ 8 * 15 + 7 < (fr (0x01#8 :: 0x09#8 :: List.replicate 14 0#8)).edges 0 ∧
    encodeFrame (.drain ⟨[true], false⟩) = some ⟨bitsOfByte 0x09#8 ++ [true], false⟩ := by decide +kernel

theorem witness_ReadEntryFrames :
    let s := after (.readEntry .opening .port (part [5#8])) State.reset
    frameReady State.reset = true ∧ (part [5#8]).ended = false ∧ 8 ≤ (part [5#8]).bits.length ∧
    (⟨List.replicate 7 false, false⟩ : FrameBits).bits.length < 8 ∧
    endsAt (fr (List.replicate 30 5#8)) 2 (3 + Table.port.entrySize) ∧ (entryBytes State.reset .port 5#8).isSome = true ∧
    entryBytes State.reset .port 6#8 = none ∧ s.phase = .running ∧
    openSnapshot s = some (readSnapshot State.reset .port 5#8) ∧
    (readSnapshot State.reset .port 5#8).source = .readEntry .port ∧
    (fr (List.replicate 29 5#8)).edges 2 ≠ 8 * (3 + Table.port.entrySize) ∧ frameReady s = false ∧
    openSnapshot State.reset = none ∧ (inReset .lineReset).phase ≠ .running := by decide +kernel

theorem witness_WriteGlobalFrame :
    let d := globalBytes State.reset
    frameReady State.reset = true ∧ endsAt (fr (0#8 :: d)) 2 57 ∧ globalOk d = true ∧
    globalOk ([16#8, 0#8] ++ d.drop 2) = true ∧ globalOk ([15#8, 0#8] ++ d.drop 2) = false := by decide +kernel

theorem witness_WritePortFrame :
    let d := portBytes State.reset 5
    frameReady State.reset = true ∧ endsAt (fr (5#8 :: d)) 2 32 ∧ (5#8 : Byte) = BitVec.ofNat 8 (5 : Fin 6).val ∧
    portOk d = true ∧ 6 ≤ (6#8 : Byte).toNat ∧ portOk (8#8 :: d.tail) = false := by decide +kernel

/-- Class 7 with the largest reservation, which stands alone or, beside another of 1, does not. -/
theorem witness_WriteClassFrame :
    let d := [1#8, 64#8, 0x00#8, 0x02#8] ++ (classBytes State.reset 7).drop 4
    let other : State := { State.reset with classRec := State.reset.classRec.set 0 { ClassRecord.reset with res := 1 } }
    frameReady State.reset = true ∧ endsAt (fr (7#8 :: d)) 2 27 ∧ classFieldsOk d = true ∧
    reservationSum (State.reset.classRec.set 7 (classOf d)) ≤ 512 ∧
    512 < reservationSum (other.classRec.set 7 (classOf d)) ∧ classFieldsOk (3#8 :: d.tail) = false ∧
    8 ≤ (8#8 : Byte).toNat := by decide +kernel

theorem witness_WriteMeterFrames :
    let d (l b : Byte) : List Byte := [0#8, 1#8, 0xFF#8, 0xFF#8, b, 0xFF#8, 0xFF#8, 0x03#8, l] ++ List.replicate 6 0#8
    frameReady State.reset = true ∧ endsAt (fr (15#8 :: d 1#8 3#8)) 2 18 ∧ numAt (d 1#8 3#8) 2 3 = 262143 ∧
    numAt (d 1#8 3#8) 5 3 ≤ 262143 ∧ byteAt (d 1#8 3#8) 8 = 0x01#8 ∧ byteAt (d 0#8 3#8) 8 = 0x00#8 ∧
    ¬numAt (d 1#8 4#8) 2 3 ≤ 262143 ∧ byteAt (d 2#8 3#8) 8 ≠ 0x01#8 ∧ 16 ≤ (16#8 : Byte).toNat := by decide +kernel

theorem witness_WriteRuleFrames :
    let p := patternBytes Pattern.reset
    let a := actionBytes Action.reset
    frameReady State.reset = true ∧ (1 : Fin 2) ≠ State.reset.activeBank ∧ (0 : Fin 2) = State.reset.activeBank ∧
    (0xAF#8 : Byte) = BitVec.ofNat 8 (128 * 1 + 47) ∧ 48 ≤ (0xB0#8 : Byte).toNat % 128 ∧
    endsAt (fr (0xAF#8 :: p)) 2 19 ∧ patternOk p = true ∧ patternOk (p.set 4 17#8) = false ∧
    endsAt (fr (0xAF#8 :: a)) 2 15 ∧ actionOk a = true ∧ actionOk (a.set 11 1#8) = false := by decide +kernel

theorem witness_WriteMaskAndReadOnly :
    frameReady State.reset = true ∧ endsAt (fr [0#8, 0xFF#8, 3#8]) 2 5 ∧ numAt [0xFF#8, 3#8] 0 2 < 1024 ∧
    1024 ≤ numAt [0#8, 4#8] 0 2 ∧ (1#8 : Byte) ≠ 0#8 ∧
    endsAt (fr (List.replicate 25 0#8)) 2 (3 + ReadOnlyTable.counters.table.entrySize) := by decide +kernel

theorem witness_SwapSeedReclaim :
    frameReady State.reset = true ∧ endsAt plain 1 3 ∧ endsAt (fr [0#8, 0#8, 1#8, 0#8]) 1 5 ∧
    byteAt [0#8, 0#8, 1#8, 0#8] 2 ≠ 0#8 ∧ byteAt [0#8, 0#8, 0#8, 0x80#8] 3 ≠ 0#8 ∧
    byteAt [0#8, 0#8, 0#8, 0#8] 2 = 0#8 ∧ byteAt [0#8, 0#8, 0#8, 0#8] 3 = 0#8 := by decide +kernel

theorem witness_EntriesReadBack :
    let p : List Byte := [0xFF#8, 0xFF#8, 0xFF#8, 0x1F#8, 16#8, 1#8] ++ List.replicate 10 0xF8#8
    let a : List Byte := [0xAA#8, 0x2A#8, 7#8, 0xFF#8, 23#8, 2#8, 1#8, 0xFF#8, 3#8, 0#8, 0#8, 0#8]
    let g := globalBytes State.reset
    let q := portBytes State.reset 5
    let c := classBytes State.reset 7
    (g.length = 54 ∧ globalOk g = true) ∧ (q.length = 29 ∧ portOk q = true) ∧ (c.length = 24 ∧ classFieldsOk c = true) ∧
    p.length = 16 ∧ patternOk p = true ∧ patternBytes (patternOf p) = p ∧ a.length = 12 ∧ actionOk a = true ∧
    actionBytes (actionOf a) = a := by decide +kernel

theorem witness_FrameRoundTrip :
    let i : Instr := .governorReset true (oddFr [1#8])
    0 < (fr [1#8]).bytes.length ∧ i.wellFormed = true ∧ encodeFrame i = some (oddFr [0x0E#8, 1#8]) ∧
    ∀ h f, i = .governorReset h f → h = true :=
  ⟨by decide, rfl, rfl, fun _ _ e => by injection e with e1; exact e1.symm⟩

theorem witness_LoadsKept :
    let s := { oneIssued .enforce (desc 5 7 7 15) 31 with pending := [.completion 31 .error []] }
    LoadsAgree s ∧ LoadsBounded s ∧ ∃ t, step s = .next t := by
  refine ⟨?_, ?_, _, rfl⟩
  · unfold LoadsAgree
    decide +kernel
  · unfold LoadsBounded
    decide +kernel

theorem witness_TagsPlacesAndStoreKept :
    let d : Descriptor := { desc 5 7 7 0 with kind := .write, dataRef := some (5, 7) }
    let s := { oneQueued .enforce d with writeStore := [⟨5, 7, [⟨1#64, 0xFF#8⟩]⟩], pending := [.issue true] }
    TagSetsAgree s ∧ PlacesAgree s ∧ NoneRanOut s ∧ StoreAgrees s ∧ SlotsCarried s ∧ ∃ t, step s = .next t := by
  intro d s
  refine ⟨?_, ?_, ?_, ?_, ?_, _, rfl⟩
  · unfold TagSetsAgree
    decide +kernel
  · constructor <;> decide +kernel
  · unfold NoneRanOut
    decide +kernel
  · unfold StoreAgrees
    decide +kernel
  · have same : ∀ q : Fin 6, s.ports[q].slot = none ∧ s.ports[q].channel = none := by decide +kernel
    intro p r h
    have := same p
    rcases h with h | h <;> simp_all

theorem resetPairs : PairsLegal ⟨.reset, .reset, .reset⟩ := by
  intro c
  cases c <;> decide

theorem reset_SettingsLegal : SettingsLegal State.reset := by
  refine ⟨⟨by decide, by decide, by decide, by decide, resetPairs⟩, ?_, ?_, by decide +kernel⟩
  · unfold PortLegal
    decide +kernel
  · have plainClass : ∀ k : Fin 8, State.reset.classRec[k] = ClassRecord.reset := by decide +kernel
    intro k
    rw [plainClass]
    exact ⟨by decide, by decide, by decide, resetPairs⟩

theorem witness_SettingsAndBoundsKept :
    SettingsLegal State.reset ∧ MetersWithin State.reset ∧ LotteryNonzero State.reset ∧ DeficitsLegal State.reset ∧
    CapturesBounded State.reset ∧ TickCounterBelow State.reset ∧ ∃ t, step State.reset = .next t := by
  refine ⟨reset_SettingsLegal, ?_, ?_, ?_, ?_, ?_, _, rfl⟩
  · unfold MetersWithin Meter.within
    decide +kernel
  · unfold LotteryNonzero
    decide +kernel
  · unfold DeficitsLegal
    decide +kernel
  · unfold CapturesBounded
    decide +kernel
  · unfold TickCounterBelow
    decide +kernel

theorem witness_LatchesKept :
    let s := { state52 48 16 true true with pending := [.tick] }
    SettingsLegal s ∧ ResetHeld s ∧ BypassLatchesOff s ∧ LatchesSettled s ∧ ∃ t, step s = .next t := by
  intro s
  refine ⟨⟨reset_SettingsLegal.1, ?_, reset_SettingsLegal.2.2⟩, ?_, ?_, ?_, _, rfl⟩
  · unfold PortLegal
    decide +kernel
  · intro h
    exact absurd rfl h
  · intro h
    exact absurd h (by decide)
  · intro _
    decide +kernel

theorem witness_DrainAndResetKept :
    ResetHeld (inReset .lineReset) ∧ OpStateAgrees (inReset .lineReset) ∧ ResetHeld drained ∧ OpStateAgrees drained ∧
    ∃ t, step drained = .next t := by
  refine ⟨?_, ?_, ?_, ?_, _, rfl⟩
  · unfold ResetHeld; decide +kernel
  · unfold OpStateAgrees; decide +kernel
  · unfold ResetHeld; decide +kernel
  · unfold OpStateAgrees; decide +kernel

end Sys2Proof.Tests
end

section
/-! PROOFS. Initiator ports and the port arbiter: the rules of the Transaction Table's invariants under each operation, the
invariant that ties the tag sets, the descriptors' places and the Write Data Store together (O57), and the statements about
presentation, grant, take and reset. -/

namespace Sys2Proof.Machine

/-! ### The table's part of the state -/

/-- Where transactions and requests stand: the ports, the class queues, the downstream tags and the Write Data Store. -/
def tableOf (s : State) : Vector PortState 6 × Vector (List Descriptor) 8 × Vector TagState 32 × List WriteSpace :=
  (s.ports, s.queues, s.tags, s.writeStore)

theorem tableOf_eq_iff {s t : State} :
    tableOf t = tableOf s ↔
      t.ports = s.ports ∧ t.queues = s.queues ∧ t.tags = s.tags ∧ t.writeStore = s.writeStore := by
  simp only [tableOf, Prod.mk.injEq]

theorem liveDescriptors_congr {s t : State} (hq : t.queues = s.queues) (ht : t.tags = s.tags) :
    liveDescriptors t = liveDescriptors s := by
  simp only [liveDescriptors, queuedDescriptors, issuedDescriptors, hq, ht]

theorem mem_liveDescriptors {s : State} {d : Descriptor} :
    d ∈ liveDescriptors s ↔ (∃ k : Fin 8, d ∈ s.queues[k]) ∨ ∃ t : Fin 32, d ∈ s.tags[t].bound := by
  simp only [liveDescriptors, queuedDescriptors, issuedDescriptors, List.mem_append, List.mem_flatMap,
    List.mem_filterMap, List.mem_finRange, true_and, Option.mem_def]

theorem TagState.bound_eq_some {x : TagState} {d : Descriptor} : x.bound = some d ↔ x = .busy d := by
  cases x <;> simp [TagState.bound]

theorem TagState.bound_of_isFree {x : TagState} (h : x.isFree = true) : x.bound = none := by
  cases x with
  | free => rfl
  | busy d => cases h
  | orphan o => cases h

/-! ### Tag sets and store against a list of descriptors -/

/-- The tag sets `live` have exactly the tags of `ds`, each of one descriptor alone (R4). -/
def TagsMatch (ds : List Descriptor) (live : Fin 6 → Fin 8 → Bool) : Prop :=
  ∀ p t, (ds.filter fun d => d.port == p && d.tag == t).length = if live p t then 1 else 0

/-- The store holds one space for each WRITE of `ds`, of its beats, and no other, and the references agree (R64, R65). -/
def StoreMatches (ds : List Descriptor) (store : List WriteSpace) : Prop :=
  (∀ d ∈ ds, d.dataRef = if d.kind = .write then some (d.port, d.tag) else none) ∧
  (∀ d ∈ ds,
    ((store.filter fun w => w.port == d.port && w.tag == d.tag).map fun w => w.data.length) =
      if d.kind = .write then [d.beats] else []) ∧
  (∀ w ∈ store, names ds w.port w.tag = true)

theorem tagSetsAgree_iff (s : State) :
    TagSetsAgree s ↔ TagsMatch (liveDescriptors s) fun p t => s.ports[p].tagLive[t] := Iff.rfl

theorem storeAgrees_iff (s : State) : StoreAgrees s ↔ StoreMatches (liveDescriptors s) s.writeStore := Iff.rfl

theorem names_eq_false {ds : List Descriptor} {p : Fin 6} {t : Fin 8} :
    names ds p t = false ↔ (ds.filter fun d => d.port == p && d.tag == t) = [] := by
  simp only [names, List.any_eq_false, List.filter_eq_nil_iff]

theorem names_of_mem {ds : List Descriptor} {d : Descriptor} (h : d ∈ ds) : names ds d.port d.tag = true :=
  (names_iff ds d.port d.tag).2 ⟨d, h, rfl, rfl⟩

theorem names_append (ds es : List Descriptor) (p : Fin 6) (t : Fin 8) :
    names (ds ++ es) p t = (names ds p t || names es p t) := List.any_append

theorem names_perm {ds es : List Descriptor} (h : ds.Perm es) (p : Fin 6) (t : Fin 8) : names ds p t = names es p t := by
  rw [Bool.eq_iff_iff, names_iff, names_iff]
  simp only [h.mem_iff]

/-- The tag sets are read off the descriptors. -/
theorem TagsMatch.names_eq {ds : List Descriptor} {live : Fin 6 → Fin 8 → Bool} (h : TagsMatch ds live) (p : Fin 6)
    (t : Fin 8) : names ds p t = live p t := by
  have count := h p t
  cases hn : names ds p t with
  | false => cases hl : live p t <;> simp_all [names_eq_false.1 hn]
  | true =>
    have : (ds.filter fun d => d.port == p && d.tag == t) ≠ [] := fun he => by simp [names_eq_false.2 he] at hn
    cases hl : live p t <;> simp_all

theorem TagsMatch.perm {ds es : List Descriptor} {live : Fin 6 → Fin 8 → Bool} (h : TagsMatch ds live)
    (hp : ds.Perm es) : TagsMatch es live := fun p t => (hp.filter _).length_eq ▸ h p t

theorem StoreMatches.perm {ds es : List Descriptor} {store : List WriteSpace} (h : StoreMatches ds store)
    (hp : ds.Perm es) : StoreMatches es store := by
  obtain ⟨refs, spaces, owned⟩ := h
  exact ⟨fun d hd => refs d (hp.mem_iff.2 hd), fun d hd => spaces d (hp.mem_iff.2 hd),
    fun w hw => names_perm hp _ _ ▸ owned w hw⟩

/-- A descriptor under a FREE tag joins, and its tag becomes LIVE (R4, R82). -/
theorem TagsMatch.cons {ds : List Descriptor} {live : Fin 6 → Fin 8 → Bool} {d : Descriptor} (h : TagsMatch ds live)
    (hfree : live d.port d.tag = false) :
    TagsMatch (d :: ds) fun p t => live p t || (d.port == p && d.tag == t) := by
  intro p t
  have count := h p t
  cases hd : (d.port == p && d.tag == t) with
  | false => simpa only [List.filter_cons, hd, Bool.or_false, Bool.false_eq_true, if_false] using count
  | true =>
    obtain ⟨rfl, rfl⟩ : d.port = p ∧ d.tag = t := by simpa using hd
    rw [hfree] at count
    simpa [List.filter_cons] using count

/-- The tag sets see a descriptor's port and tag alone. -/
theorem TagsMatch.relabel {ds : List Descriptor} {live : Fin 6 → Fin 8 → Bool} {d e : Descriptor}
    (h : TagsMatch (d :: ds) live) (hport : e.port = d.port) (htag : e.tag = d.tag) : TagsMatch (e :: ds) live := by
  intro p t
  simpa only [List.filter_cons, apply_ite List.length, List.length_cons, hport, htag] using h p t

/-- Descriptors leave, and their tags become FREE (R4, R63). -/
theorem TagsMatch.free {ds rest : List Descriptor} {live : Fin 6 → Fin 8 → Bool} (h : TagsMatch (ds ++ rest) live) :
    TagsMatch rest fun p t => live p t && !names ds p t := by
  intro p t
  have count := h p t
  rw [List.filter_append, List.length_append] at count
  cases hn : names ds p t with
  | false =>
    rw [names_eq_false.1 hn] at count
    simpa [hn] using count
  | true =>
    have some_gone : (ds.filter fun d => d.port == p && d.tag == t).length ≠ 0 := fun he => by
      simp [names_eq_false.2 (List.length_eq_zero_iff.1 he)] at hn
    simp only [hn, Bool.not_true, Bool.and_false, Bool.false_eq_true, if_false]
    split at count <;> omega

/-- No descriptor that stays has the tag of one that leaves. -/
theorem TagsMatch.disjoint {ds rest : List Descriptor} {live : Fin 6 → Fin 8 → Bool} (h : TagsMatch (ds ++ rest) live)
    {d : Descriptor} (hd : d ∈ rest) : names ds d.port d.tag = false := by
  have stays := h.free.names_eq d.port d.tag
  rw [names_of_mem hd] at stays
  simp_all

/-- A descriptor under a tag that none of `ds` has joins, a WRITE's data with it (R64, R82). -/
theorem StoreMatches.cons {ds : List Descriptor} {store : List WriteSpace} {d : Descriptor} {data : List DataBeat}
    (h : StoreMatches ds store) (hnew : names ds d.port d.tag = false)
    (href : d.dataRef = if d.kind = .write then some (d.port, d.tag) else none)
    (hdata : d.kind = .write → data.length = d.beats) :
    StoreMatches (d :: ds) (if d.kind = .write then store ++ [⟨d.port, d.tag, data⟩] else store) := by
  obtain ⟨refs, spaces, owned⟩ := h
  have none_yet : (store.filter fun w => w.port == d.port && w.tag == d.tag) = [] := by
    refine List.filter_eq_nil_iff.2 fun w hw hk => ?_
    obtain ⟨hp, ht⟩ : w.port = d.port ∧ w.tag = d.tag := by simpa using hk
    have := owned w hw
    rw [hp, ht, hnew] at this
    cases this
  have others : ∀ e ∈ ds, (d.port == e.port && d.tag == e.tag) = false := by
    intro e he
    by_contra hk
    obtain ⟨hp, ht⟩ : d.port = e.port ∧ d.tag = e.tag := by simpa using hk
    rw [hp, ht, names_of_mem he] at hnew
    cases hnew
  refine ⟨List.forall_mem_cons.2 ⟨href, refs⟩, List.forall_mem_cons.2 ⟨?_, fun e he => ?_⟩, fun w hw => ?_⟩
  · split
    · rename_i hk
      simp [none_yet, hdata hk]
    · simp [none_yet]
  · rw [← spaces e he]
    split
    · simp [List.filter_append, others e he]
    · rfl
  · have mine_or_old : w ∈ store ∨ (w.port = d.port ∧ w.tag = d.tag) := by
      split at hw
      · rcases List.mem_append.1 hw with hw | hw
        · exact .inl hw
        · obtain rfl := List.mem_singleton.1 hw
          exact .inr ⟨rfl, rfl⟩
      · exact .inl hw
    rcases mine_or_old with hw | ⟨hp, ht⟩
    · have old := owned w hw
      rw [names] at old ⊢
      rw [List.any_cons, old, Bool.or_true]
    · rw [hp, ht]
      exact names_of_mem List.mem_cons_self

/-- The store sees a descriptor's port, tag, kind, beats and reference alone. -/
theorem StoreMatches.relabel {ds : List Descriptor} {store : List WriteSpace} {d e : Descriptor}
    (h : StoreMatches (d :: ds) store) (hport : e.port = d.port) (htag : e.tag = d.tag) (hkind : e.kind = d.kind)
    (hbeats : e.beats = d.beats) (href : e.dataRef = d.dataRef) : StoreMatches (e :: ds) store := by
  simpa only [StoreMatches, List.forall_mem_cons, names, List.any_cons, hport, htag, hkind, hbeats, href] using h

/-- Descriptors leave, and the spaces under their tags are released (R63, R64). -/
theorem StoreMatches.free {ds rest : List Descriptor} {store : List WriteSpace} (h : StoreMatches (ds ++ rest) store)
    (hdisj : ∀ d ∈ rest, names ds d.port d.tag = false) :
    StoreMatches rest (store.filter fun w => !names ds w.port w.tag) := by
  obtain ⟨refs, spaces, owned⟩ := h
  refine ⟨fun d hd => refs d (List.mem_append_right _ hd), fun d hd => ?_, fun w hw => ?_⟩
  · rw [← spaces d (List.mem_append_right _ hd), List.filter_filter]
    congr 1
    refine List.filter_congr fun w _ => ?_
    by_cases hk : w.port = d.port ∧ w.tag = d.tag
    · simp [hk, hdisj d hd]
    · simp_all
  · obtain ⟨hw, hkept⟩ := List.mem_filter.1 hw
    have named := owned w hw
    rw [names_append] at named
    simp_all

/-! ### The live descriptors after a replacement -/

/-- An entry of a vector after one has been replaced, both by their `Fin` index. -/
theorem getElem_set_fin {α : Type} {n : Nat} (v : Vector α n) (i j : Fin n) (x : α) :
    (v.set i x)[j] = if i = j then x else v[j] := by
  simp only [Fin.getElem_fin, Vector.getElem_set, Fin.ext_iff]

/-- Replacing entry `i` of a vector replaces its part of a list gathered from all entries, up to order. -/
theorem flatMap_set_perm {α β : Type} {n : Nat} (v : Vector α n) (i : Fin n) (f : α → List β) :
    ∃ rest : List β, ∀ x : α, ((List.finRange n).flatMap fun j => f (v.set i x)[j]).Perm (f x ++ rest) := by
  refine ⟨((List.finRange n).erase i).flatMap fun j => f v[j], fun x => ?_⟩
  have front := (List.perm_cons_erase (List.mem_finRange i)).flatMap_right fun j => f (v.set i x)[j]
  rw [List.flatMap_cons] at front
  have here : f (v.set i x)[i] = f x := by rw [getElem_set_fin, if_pos rfl]
  have elsewhere : (((List.finRange n).erase i).flatMap fun j => f (v.set i x)[j]) =
      ((List.finRange n).erase i).flatMap fun j => f v[j] := by
    refine List.flatMap_congr fun j hj => ?_
    have hne : j ≠ i := ((List.nodup_finRange n).mem_erase_iff.1 hj).1
    rw [getElem_set_fin, if_neg hne.symm]
  rwa [here, elsewhere] at front

/-- An entry replaced by itself, by its `Fin` index. -/
theorem vector_set_self {α : Type} {n : Nat} (v : Vector α n) (i : Fin n) : v.set i v[i] = v := by simp

theorem issuedDescriptors_eq (s : State) :
    issuedDescriptors s = (List.finRange 32).flatMap fun t => s.tags[t].bound.toList := by
  rw [issuedDescriptors, List.filterMap_eq_flatMap_toList]

/-- The QUEUED descriptors by one class queue and the others. -/
theorem queuedDescriptors_perm (s : State) (k : Fin 8) :
    ∃ rest, (queuedDescriptors s).Perm (s.queues[k] ++ rest) ∧
      ∀ (t : State) (l : List Descriptor), t.queues = s.queues.set k l → (queuedDescriptors t).Perm (l ++ rest) := by
  obtain ⟨rest, h⟩ := flatMap_set_perm s.queues k id
  have self := h s.queues[k]
  rw [vector_set_self] at self
  refine ⟨rest, self, fun t l ht => ?_⟩
  rw [queuedDescriptors, ht]
  exact h l

/-- The ISSUED descriptors by one downstream tag and the others. -/
theorem issuedDescriptors_perm (s : State) (τ : Fin 32) :
    ∃ rest, (issuedDescriptors s).Perm (s.tags[τ].bound.toList ++ rest) ∧
      ∀ (t : State) (x : TagState), t.tags = s.tags.set τ x → (issuedDescriptors t).Perm (x.bound.toList ++ rest) := by
  obtain ⟨rest, h⟩ := flatMap_set_perm s.tags τ fun x => x.bound.toList
  have self := h s.tags[τ]
  rw [vector_set_self] at self
  refine ⟨rest, issuedDescriptors_eq s ▸ self, fun t x ht => ?_⟩
  rw [issuedDescriptors_eq, ht]
  exact h x

/-- A descriptor added to a class queue joins the live ones. -/
theorem liveDescriptors_enqueue {s t : State} {k : Fin 8} {d : Descriptor}
    (hq : t.queues = s.queues.set k (s.queues[k] ++ [d])) (ht : t.tags = s.tags) :
    (d :: liveDescriptors s).Perm (liveDescriptors t) := by
  obtain ⟨rest, before, after⟩ := queuedDescriptors_perm s k
  have issued : issuedDescriptors t = issuedDescriptors s := by simp only [issuedDescriptors, ht]
  rw [liveDescriptors, liveDescriptors, issued, ← List.cons_append]
  refine List.Perm.append_right _ ?_
  calc (d :: queuedDescriptors s).Perm (d :: (s.queues[k] ++ rest)) := before.cons d
    _ |>.Perm (s.queues[k] ++ d :: rest) := List.perm_middle.symm
    _ = (s.queues[k] ++ [d]) ++ rest := by simp
    _ |>.Perm (queuedDescriptors t) := (after t _ hq).symm

/-- A descriptor that leaves its BUSY tag is the one live descriptor that goes. -/
theorem liveDescriptors_release {s t : State} {τ : Fin 32} {d : Descriptor} (hb : s.tags[τ].bound = some d)
    (hq : t.queues = s.queues) (ht : t.tags = s.tags.set τ .free) :
    (liveDescriptors s).Perm (d :: liveDescriptors t) := by
  obtain ⟨rest, before, after⟩ := issuedDescriptors_perm s τ
  have queued : queuedDescriptors t = queuedDescriptors s := by simp only [queuedDescriptors, hq]
  rw [hb] at before
  rw [liveDescriptors, liveDescriptors, queued]
  calc (queuedDescriptors s ++ issuedDescriptors s).Perm (queuedDescriptors s ++ d :: rest) :=
        before.append_left _
    _ |>.Perm (d :: (queuedDescriptors s ++ rest)) := List.perm_middle
    _ |>.Perm (d :: (queuedDescriptors s ++ issuedDescriptors t)) := ((after t _ ht).symm.append_left _).cons d

/-- A head that goes from its queue to a FREE tag stays live, as the descriptor the tag is bound to. -/
theorem liveDescriptors_move {s t : State} {k : Fin 8} {τ : Fin 32} {d d' : Descriptor} {l : List Descriptor}
    (hd : s.queues[k] = d :: l) (hf : s.tags[τ].bound = none) (hq : t.queues = s.queues.set k l)
    (ht : t.tags = s.tags.set τ (.busy d')) :
    ∃ rest, (liveDescriptors s).Perm (d :: rest) ∧ (d' :: rest).Perm (liveDescriptors t) := by
  obtain ⟨qrest, qbefore, qafter⟩ := queuedDescriptors_perm s k
  obtain ⟨trest, tbefore, tafter⟩ := issuedDescriptors_perm s τ
  rw [hd] at qbefore
  rw [hf] at tbefore
  refine ⟨(l ++ qrest) ++ trest, qbefore.append tbefore, ?_⟩
  exact List.perm_middle.symm.trans ((qafter t l hq).append (tafter t _ ht)).symm

/-! ### The invariant of the table -/

/-- What every moment has, within an event too: the tag sets, the places, the store and the slots agree (R1, R4, R64, R65, R104,
R122). -/
structure TableAgrees (s : State) : Prop where
  tagSets : TagSetsAgree s
  places  : PlacesAgree s
  store   : StoreAgrees s
  slots   : SlotsCarried s

/-- What every moment between two events has: no count has run out either (R130). -/
structure TableSettled (s : State) : Prop extends TableAgrees s where
  noneRanOut : NoneRanOut s

theorem TableAgrees.congr {s t : State} (h : TableAgrees s) (he : tableOf t = tableOf s) : TableAgrees t := by
  obtain ⟨hp, hq, ht, hw⟩ := tableOf_eq_iff.1 he
  obtain ⟨tagSets, places, store, slots⟩ := h
  have live := liveDescriptors_congr hq ht
  constructor
  · rwa [TagSetsAgree, live, hp]
  · rwa [PlacesAgree, hq, ht]
  · rwa [StoreAgrees, live, hw]
  · rwa [SlotsCarried, hp]

theorem TableSettled.congr {s t : State} (h : TableSettled s) (he : tableOf t = tableOf s) : TableSettled t := by
  obtain ⟨_, hq, ht, _⟩ := tableOf_eq_iff.1 he
  refine ⟨h.toTableAgrees.congr he, ?_⟩
  rw [NoneRanOut, liveDescriptors_congr hq ht]
  exact h.noneRanOut

/-- Descriptors that stay where they were are still where they belong. -/
theorem PlacesAgree.of_within {s t : State} (h : PlacesAgree s) (hq : ∀ k : Fin 8, ∀ d ∈ t.queues[k], d ∈ s.queues[k])
    (ht : ∀ τ : Fin 32, ∀ d ∈ t.tags[τ].bound, d ∈ s.tags[τ].bound) : PlacesAgree t :=
  ⟨fun k d hd => h.1 k d (hq k d hd), fun τ d hd => h.2 τ d (ht τ d hd)⟩

/-- A replaced downstream tag binds only what its new state binds. -/
theorem bound_set {v : Vector TagState 32} {τ τ' : Fin 32} {x : TagState} {d : Descriptor}
    (h : d ∈ (v.set τ x)[τ'].bound) : (τ' = τ ∧ d ∈ x.bound) ∨ d ∈ v[τ'].bound := by
  rw [getElem_set_fin] at h
  split at h
  · exact .inl ⟨‹τ = τ'›.symm, h⟩
  · exact .inr h

/-- A replaced class queue holds only what its new list holds. -/
theorem mem_queue_set {v : Vector (List Descriptor) 8} {k k' : Fin 8} {l : List Descriptor} {d : Descriptor}
    (h : d ∈ (v.set k l)[k']) : (k' = k ∧ d ∈ l) ∨ d ∈ v[k'] := by
  rw [getElem_set_fin] at h
  split at h
  · exact .inl ⟨‹k = k'›.symm, h⟩
  · exact .inr h

/-! ### Freeing -/

/-- A freeing of descriptors that leave their places keeps the table in agreement (R63). -/
theorem TableAgrees.freed {s t : State} {ds : List Descriptor} (h : TableAgrees s)
    (hports : t.ports = portsAfterFreeing s ds) (hstore : t.writeStore = storeAfterFreeing s ds)
    (hlive : (liveDescriptors s).Perm (ds ++ liveDescriptors t)) (hplaces : PlacesAgree t) : TableAgrees t := by
  have matched := ((tagSetsAgree_iff s).1 h.tagSets).perm hlive
  refine ⟨?_, hplaces, ?_, ?_⟩
  · rw [tagSetsAgree_iff, hports]
    simpa [portsAfterFreeing] using matched.free
  · rw [storeAgrees_iff, hstore]
    exact (((storeAgrees_iff s).1 h.store).perm hlive).free fun d hd => matched.disjoint hd
  · rw [SlotsCarried, hports]
    simpa [portsAfterFreeing, SlotsCarried] using h.slots

theorem tableOf_handOn (s : State) (ds : List Descriptor) : tableOf (handOn s ds) = tableOf s := rfl

theorem tableOf_freeDescriptors (s : State) (ds : List Descriptor) :
    tableOf (freeDescriptors s ds) = (portsAfterFreeing s ds, s.queues, s.tags, storeAfterFreeing s ds) := rfl

theorem tableOf_noteHold (s t : State) : tableOf (noteHold s t) = tableOf t := rfl

/-- The descriptor of a BUSY tag is answered and freed, and its tag becomes FREE (R125, R127). -/
theorem TableSettled.completed {s t : State} {τ : Fin 32} {d : Descriptor} (h : TableSettled s) (hb : s.tags[τ] = .busy d)
    (he : tableOf t = (portsAfterFreeing s [d], s.queues, s.tags.set τ .free, storeAfterFreeing s [d])) :
    TableSettled t := by
  obtain ⟨hp, hq, ht, hw⟩ : t.ports = portsAfterFreeing s [d] ∧ t.queues = s.queues ∧
      t.tags = s.tags.set τ .free ∧ t.writeStore = storeAfterFreeing s [d] := by
    simpa only [tableOf, Prod.mk.injEq] using he
  have gone := liveDescriptors_release (TagState.bound_eq_some.2 hb) hq ht
  have stays : PlacesAgree t := h.places.of_within (fun k e hmem => by rwa [hq] at hmem) fun τ' e hmem => by
    rw [ht] at hmem
    rcases bound_set hmem with ⟨_, hfree⟩ | hold
    · cases hfree
    · exact hold
  exact ⟨h.toTableAgrees.freed hp hw gone stays,
    fun e hmem => h.noneRanOut e (gone.mem_iff.2 (List.mem_cons_of_mem _ hmem))⟩

/-- A tag that is not BUSY becomes FREE (R128, R137). -/
theorem TableSettled.unbound {s t : State} (h : TableSettled s) (hp : t.ports = s.ports) (hq : t.queues = s.queues)
    (hw : t.writeStore = s.writeStore) (ht : ∀ τ : Fin 32, t.tags[τ].bound = s.tags[τ].bound) : TableSettled t := by
  have live : liveDescriptors t = liveDescriptors s := by
    simp only [liveDescriptors, queuedDescriptors, issuedDescriptors, hq, ht]
  obtain ⟨⟨tagSets, places, store, slots⟩, noneRanOut⟩ := h
  refine ⟨⟨?_, ?_, ?_, ?_⟩, ?_⟩
  · rwa [TagSetsAgree, live, hp]
  · exact places.of_within (fun k e hmem => by rwa [hq] at hmem) fun τ e hmem => by rwa [ht] at hmem
  · rwa [StoreAgrees, live, hw]
  · rwa [SlotsCarried, hp]
  · rwa [NoneRanOut, live]

theorem tableOf_completeOkay (s : State) (τ : Fin 32) (d : Descriptor) (data : List Beat) :
    tableOf (completeOkay s τ d data) =
      (portsAfterFreeing s [d], s.queues, s.tags.set τ .free, storeAfterFreeing s [d]) := by
  simp only [completeOkay, tableOf_handOn, tableOf_freeDescriptors, portsAfterFreeing, storeAfterFreeing, respond_ports,
    respond_queues, respond_tags, respond_writeStore]

theorem tableOf_completeError (s : State) (τ : Fin 32) (d : Descriptor) :
    tableOf (completeError s τ d) =
      (portsAfterFreeing s [d], s.queues, s.tags.set τ .free, storeAfterFreeing s [d]) := by
  simp only [completeError, State.raise, tableOf_handOn, tableOf_freeDescriptors, portsAfterFreeing, storeAfterFreeing,
    raiseIf_ports, raiseIf_queues, raiseIf_tags, raiseIf_writeStore, count_ports, count_queues, count_tags,
    count_writeStore, respond_ports, respond_queues, respond_tags, respond_writeStore]

theorem completionEvent_settled {s : State} (τ : Fin 32) (status : MemStatus) (data : List Beat) (h : TableSettled s) :
    TableSettled (completionEvent τ status data s) := by
  refine TableSettled.congr ?_ (tableOf_noteHold s _)
  cases hτ : s.tags[τ] with
  | free => exact h.congr rfl
  | busy d =>
    cases status with
    | okay => exact h.completed hτ (tableOf_completeOkay s τ d data)
    | error => exact h.completed hτ (tableOf_completeError s τ d)
  | orphan o =>
    refine h.unbound rfl rfl rfl fun τ' => ?_
    rw [getElem_set_fin]
    split
    · rw [← ‹τ = τ'›, hτ]
      rfl
    · rfl

/-! ### Issue -/

/-- A descriptor as the downstream tag it is issued under is bound to it (R108). -/
def issuedUnder (d : Descriptor) (τ : Fin 32) : Descriptor := { d with state := .issued, dtag := some τ }

theorem issueHead_settled {s : State} {k : Fin 8} {τ : Fin 32} {d : Descriptor} {rest : List Descriptor} (sc : Sched)
    (h : TableSettled s) (hd : s.queues[k] = d :: rest) (hf : s.tags[τ].isFree = true) :
    TableSettled (issueHead s k sc τ d rest) := by
  obtain ⟨others, before, after⟩ := liveDescriptors_move (d' := issuedUnder d τ) hd (TagState.bound_of_isFree hf)
    (issueHead_queues s k sc τ d rest) (issueHead_tags s k sc τ d rest)
  refine ⟨⟨?_, ?_, ?_, h.slots⟩, ?_⟩
  · exact ((((tagSetsAgree_iff s).1 h.tagSets).perm before).relabel (e := issuedUnder d τ) rfl rfl).perm after
  · constructor
    · intro k' e hmem
      rcases mem_queue_set hmem with ⟨rfl, hrest⟩ | hold
      · exact h.places.1 k' e (hd ▸ List.mem_cons_of_mem d hrest)
      · exact h.places.1 k' e hold
    · intro τ' e hmem
      rcases bound_set hmem with ⟨rfl, hnew⟩ | hold
      · cases hnew
        exact ⟨rfl, rfl⟩
      · exact h.places.2 τ' e hold
  · exact ((((storeAgrees_iff s).1 h.store).perm before).relabel (e := issuedUnder d τ) rfl rfl rfl rfl rfl).perm after
  · intro e hmem
    rcases List.mem_cons.1 (after.mem_iff.2 hmem) with rfl | hold
    · exact h.noneRanOut d (before.mem_iff.2 List.mem_cons_self)
    · exact h.noneRanOut e (before.mem_iff.2 (List.mem_cons_of_mem d hold))

/-- An issue moves a head under a FREE tag, or changes nothing (R108). -/
theorem issueEvent_cases (s : State) :
    issueEvent s = s ∨ ∃ k sc τ d rest, s.queues[k] = d :: rest ∧ s.tags[τ].isFree = true ∧
      issueEvent s = issueHead s k sc τ d rest := by
  unfold issueEvent issueReady
  split
  · split
    · rename_i τ k sc hτ _
      split
      · rename_i d rest hd
        exact .inr ⟨k, sc, τ, d, rest, hd, lowestFreeTag_isFree hτ, rfl⟩
      · exact .inl rfl
    · exact .inl rfl
  · exact .inl rfl

theorem issueEvent_settled {s : State} (h : TableSettled s) : TableSettled (issueEvent s) := by
  rcases issueEvent_cases s with he | ⟨k, sc, τ, d, rest, hd, hf, he⟩
  · rwa [he]
  · rw [he]
    exact issueHead_settled sc h hd hf

/-! ### Tick and expiry -/

section CountDown
variable (d : Descriptor)

@[simp] theorem countDown_port : d.countDown.port = d.port := by unfold Descriptor.countDown; split <;> rfl
@[simp] theorem countDown_tag : d.countDown.tag = d.tag := by unfold Descriptor.countDown; split <;> rfl
@[simp] theorem countDown_kind : d.countDown.kind = d.kind := by unfold Descriptor.countDown; split <;> rfl
@[simp] theorem countDown_cls : d.countDown.cls = d.cls := by unfold Descriptor.countDown; split <;> rfl
@[simp] theorem countDown_state : d.countDown.state = d.state := by unfold Descriptor.countDown; split <;> rfl
@[simp] theorem countDown_dtag : d.countDown.dtag = d.dtag := by unfold Descriptor.countDown; split <;> rfl
@[simp] theorem countDown_dataRef : d.countDown.dataRef = d.dataRef := by unfold Descriptor.countDown; split <;> rfl
@[simp] theorem countDown_beats : d.countDown.beats = d.beats := by unfold Descriptor.countDown; split <;> rfl

end CountDown

@[simp] theorem TagState.countDown_bound (x : TagState) : x.countDown.bound = x.bound.map Descriptor.countDown := by
  cases x <;> rfl

@[simp] theorem TagState.expire_bound (x : TagState) : x.expire.bound = x.bound.filter fun d => !d.ranOut := by
  cases x with
  | free => rfl
  | busy d => cases hd : d.ranOut <;> simp [TagState.expire, TagState.bound, Option.filter, hd]
  | orphan o => rfl

theorem mem_queue_countDownAll {s : State} {k : Fin 8} {d : Descriptor} :
    d ∈ (countDownAll s).queues[k] ↔ ∃ e ∈ s.queues[k], e.countDown = d := by
  simp

theorem mem_bound_countDownAll {s : State} {τ : Fin 32} {d : Descriptor} :
    d ∈ (countDownAll s).tags[τ].bound ↔ ∃ e ∈ s.tags[τ].bound, e.countDown = d := by
  simp

theorem mem_queue_dropExpired {s : State} {k : Fin 8} {d : Descriptor} :
    d ∈ (dropExpired s).queues[k] ↔ d ∈ s.queues[k] ∧ d.ranOut = false := by
  simp

theorem mem_bound_dropExpired {s : State} {τ : Fin 32} {d : Descriptor} :
    d ∈ (dropExpired s).tags[τ].bound ↔ d ∈ s.tags[τ].bound ∧ d.ranOut = false := by
  simp

theorem liveDescriptors_countDownAll (s : State) :
    liveDescriptors (countDownAll s) = (liveDescriptors s).map Descriptor.countDown := by
  simp [liveDescriptors, queuedDescriptors, issuedDescriptors, countDownAll, List.map_flatMap, List.map_filterMap]

theorem liveDescriptors_dropExpired (s : State) :
    liveDescriptors (dropExpired s) = (liveDescriptors s).filter fun d => !d.ranOut := by
  simp [liveDescriptors, queuedDescriptors, issuedDescriptors, dropExpired, List.filter_flatMap, List.filter_filterMap]

/-- The count is no part of what ties a descriptor to its tag, place and space. -/
theorem countDownAll_agrees {s : State} (h : TableAgrees s) : TableAgrees (countDownAll s) := by
  have named : ∀ p t, names ((liveDescriptors s).map Descriptor.countDown) p t = names (liveDescriptors s) p t := by
    intro p t
    simp [names, List.any_map, Function.comp_def]
  refine ⟨?_, ⟨fun k d hmem => ?_, fun τ d hmem => ?_⟩, ?_, h.slots⟩
  · rw [tagSetsAgree_iff, liveDescriptors_countDownAll]
    intro p t
    rw [List.filter_map, List.length_map, countDownAll_ports]
    simpa only [Function.comp_def, countDown_port, countDown_tag] using h.tagSets p t
  · obtain ⟨e, he, rfl⟩ := mem_queue_countDownAll.1 hmem
    simpa using h.places.1 k e he
  · obtain ⟨e, he, rfl⟩ := mem_bound_countDownAll.1 hmem
    simpa using h.places.2 τ e he
  · obtain ⟨refs, spaces, owned⟩ := h.store
    rw [storeAgrees_iff, liveDescriptors_countDownAll]
    exact ⟨List.forall_mem_map.2 (by simpa using refs), List.forall_mem_map.2 (by simpa using spaces),
      fun w hw => (named _ _).trans (owned w hw)⟩

theorem tableOf_count (s : State) (g : Fin 24) (c : Counter) (n : Nat) : tableOf (count s g c n) = tableOf s := rfl

theorem tableOf_countEach (s : State) (gs : List (Fin 24)) (c : Counter) : tableOf (countEach s gs c) = tableOf s := by
  induction gs generalizing s with
  | nil => rfl
  | cons g gs ih => exact (ih (count s g c 1)).trans (tableOf_count s g c 1)

/-- What an event's expiries leave of the table (R116, R131, R132). -/
theorem tableOf_expireAll (s : State) :
    tableOf (expireAll s) =
      (portsAfterFreeing s (expiring s), (dropExpired s).queues, (dropExpired s).tags, storeAfterFreeing s (expiring s)) := by
  obtain ⟨hp, hq, ht, hw⟩ := tableOf_eq_iff.1
    (tableOf_countEach (respondAll (dropExpired s) (expiring s) (.fault .expired)) ((expiring s).map Descriptor.group) .faulted)
  simp only [expireAll, tableOf_handOn, tableOf_freeDescriptors, portsAfterFreeing, storeAfterFreeing, raiseIf_ports,
    raiseIf_queues, raiseIf_tags, raiseIf_writeStore, hp, hq, ht, hw, respondAll_ports, respondAll_queues, respondAll_tags,
    respondAll_writeStore, dropExpired_ports, dropExpired_writeStore]

/-- Every descriptor whose count has run out leaves at an expiry, so that none is left (R130, R133). -/
theorem expireAll_settled {s : State} (h : TableAgrees s) : TableSettled (expireAll s) := by
  obtain ⟨hp, hq, ht, hw⟩ : (expireAll s).ports = portsAfterFreeing s (expiring s) ∧
      (expireAll s).queues = (dropExpired s).queues ∧ (expireAll s).tags = (dropExpired s).tags ∧
      (expireAll s).writeStore = storeAfterFreeing s (expiring s) := by
    simpa only [tableOf, Prod.mk.injEq] using tableOf_expireAll s
  have live := (liveDescriptors_congr hq ht).trans (liveDescriptors_dropExpired s)
  have split : (liveDescriptors s).Perm (expiring s ++ liveDescriptors (expireAll s)) :=
    live ▸ (List.filter_append_perm Descriptor.ranOut (liveDescriptors s)).symm
  have stays : PlacesAgree (expireAll s) := h.places.of_within
    (fun k d hmem => (mem_queue_dropExpired.1 (hq ▸ hmem)).1) fun τ d hmem => (mem_bound_dropExpired.1 (ht ▸ hmem)).1
  refine ⟨h.freed hp hw split stays, fun d hmem => ?_⟩
  rw [live] at hmem
  simpa using (List.mem_filter.1 hmem).2

theorem expiryEvent_settled {s : State} (h : TableSettled s) : TableSettled (expiryEvent s) :=
  (expireAll_settled h.toTableAgrees).congr (tableOf_noteHold s _)

theorem tickEvent_settled {s : State} (h : TableSettled s) : TableSettled (tickEvent s) := by
  have refilled : TableAgrees (refillMeters { s with tickCounter := 0 }) := h.toTableAgrees.congr rfl
  exact (expireAll_settled (countDownAll_agrees refilled)).congr (tableOf_noteHold s _)

theorem refclkPeriod_settled {s : State} (h : TableSettled s) : TableSettled (refclkPeriod s) := by
  unfold refclkPeriod
  split
  · split
    · exact tickEvent_settled (h.congr rfl)
    · exact h.congr rfl
  · exact h.congr rfl

/-! ### Presentation and take -/

/-- A port replaced by one whose requests its channel can carry. -/
theorem SlotsCarried.set {s t : State} {p : Fin 6} {x : PortState} (h : SlotsCarried s) (hp : t.ports = s.ports.set p x)
    (hx : ∀ r, x.slot = some r ∨ x.channel = some r → r.dataFits = true) : SlotsCarried t := by
  intro q r hr
  rw [hp, getElem_set_fin] at hr
  split at hr
  · exact hx r hr
  · exact h q r hr

/-- A port replaced by one with the same tag set keeps the table in agreement if its requests are carried ones. -/
theorem TableSettled.setPort {s t : State} {p : Fin 6} {x : PortState} (h : TableSettled s)
    (htags : x.tagLive = s.ports[p].tagLive) (hx : ∀ r, x.slot = some r ∨ x.channel = some r → r.dataFits = true)
    (he : tableOf t = (s.ports.set p x, s.queues, s.tags, s.writeStore)) : TableSettled t := by
  obtain ⟨hp, hq, ht, hw⟩ : t.ports = s.ports.set p x ∧ t.queues = s.queues ∧ t.tags = s.tags ∧
      t.writeStore = s.writeStore := by
    simpa only [tableOf, Prod.mk.injEq] using he
  have live := liveDescriptors_congr hq ht
  have sameTags : ∀ q : Fin 6, t.ports[q].tagLive = s.ports[q].tagLive := by
    intro q
    rw [hp, getElem_set_fin]
    split
    · rw [htags, ‹p = q›]
    · rfl
  obtain ⟨⟨tagSets, places, store, slots⟩, noneRanOut⟩ := h
  refine ⟨⟨?_, ?_, ?_, slots.set hp hx⟩, ?_⟩
  · intro q τ
    rw [live, sameTags]
    exact tagSets q τ
  · rwa [PlacesAgree, hq, ht]
  · rwa [StoreAgrees, live, hw]
  · rwa [NoneRanOut, live]

theorem presentRequest_settled {s : State} (p : Fin 6) (r : Request) (h : TableSettled s) :
    TableSettled (presentRequest s p r) := by
  refine h.setPort (p := p) (x := { s.ports[p] with
    channel := some r.carried
    slot := if s.phase = .running ∧ s.ports[p].slot = none then some r.carried else s.ports[p].slot }) rfl ?_ rfl
  rintro r' (hslot | hchannel)
  · simp only at hslot
    split at hslot
    · cases hslot
      exact r.carried_dataFits
    · exact h.slots p r' (.inl hslot)
  · cases hchannel
    exact r.carried_dataFits

theorem acceptRequest_settled {s : State} (p : Fin 6) (h : TableSettled s) : TableSettled (acceptRequest s p) :=
  h.setPort (p := p) (x := { s.ports[p] with slot := none, channel := none }) rfl
    (fun r hr => by rcases hr with hr | hr <;> cases hr) rfl

/-- Whether a tag is LIVE once one tag of one port has become so. -/
theorem tagLive_admitRequest (s : State) (p q : Fin 6) (r : Request) (x : Treatment) (t : Fin 8) :
    (admitRequest s p r x).ports[q].tagLive[t] = (s.ports[q].tagLive[t] || (p == q && r.tag == t)) := by
  rw [admitRequest_ports, getElem_set_fin]
  by_cases hq : p = q
  · subst hq
    simp only [if_true, getElem_set_fin]
    by_cases ht : r.tag = t <;> simp [ht]
  · simp [hq]

/-- An admission under a FREE tag of a request its channel can carry keeps the table settled (R82). -/
theorem admitRequest_settled {s : State} {p : Fin 6} {r : Request} (x : Treatment) (h : TableSettled s)
    (hfree : s.ports[p].tagLive[r.tag] = false) (hdata : r.dataFits = true) : TableSettled (admitRequest s p r x) := by
  have joined := liveDescriptors_enqueue (admitRequest_queues s p r x) (admitRequest_tags s p r x)
  have matched := (tagSetsAgree_iff s).1 h.tagSets
  have fits : r.kind = .write → r.data.length = r.beats := by
    intro hk
    simpa [Request.dataFits, hk] using hdata
  refine ⟨⟨?_, ⟨fun k d hmem => ?_, h.places.2⟩, ?_, ?_⟩, fun d hmem => ?_⟩
  · have extended := (matched.cons (d := newDescriptor p r x) hfree).perm joined
    intro q t
    rw [tagLive_admitRequest]
    exact extended q t
  · rcases mem_queue_set hmem with ⟨rfl, hnew⟩ | hold
    · rcases List.mem_append.1 hnew with hold | hnew
      · exact h.places.1 _ d hold
      · obtain rfl := List.mem_singleton.1 hnew
        exact ⟨rfl, rfl, rfl⟩
    · exact h.places.1 k d hold
  · have extended := ((storeAgrees_iff s).1 h.store).cons (d := newDescriptor p r x) (data := r.data)
      ((matched.names_eq p r.tag).trans hfree) rfl fits
    exact extended.perm joined
  · exact h.slots.set (admitRequest_ports s p r x) fun r' hr => h.slots p r' hr
  · rcases List.mem_cons.1 (joined.mem_iff.2 hmem) with rfl | hold
    · rfl
    · exact h.noneRanOut d hold

theorem tableOf_capture (s : State) (p : Fin 6) (r : Request) (res : Resolution) (c : Option Colour) (o : TakeOutcome) :
    tableOf (capture s p r res c o) = tableOf s := by
  unfold capture
  split <;> rfl

theorem tableOf_countRed (s : State) (g : Fin 24) (c : Colour) : tableOf (countRed s g c) = tableOf s := by
  unfold countRed
  split <;> rfl

theorem tableOf_admitRequest_congr {s u : State} (h : tableOf u = tableOf s) (p : Fin 6) (r : Request) (x : Treatment) :
    tableOf (admitRequest u p r x) = tableOf (admitRequest s p r x) := by
  obtain ⟨hp, hq, ht, hw⟩ := tableOf_eq_iff.1 h
  simp only [tableOf, admitRequest, hp, hq, ht, hw]

/-- From `s` to `t` the table stays, or one admission of the request changes it. -/
def AdmitsAtMost (p : Fin 6) (r : Request) (s t : State) : Prop :=
  tableOf t = tableOf s ∨ ∃ x, tableOf t = tableOf (admitRequest s p r x)

theorem takeBypass_admitsAtMost (s : State) (p : Fin 6) (r : Request) : AdmitsAtMost p r s (takeBypass s p r) := by
  unfold takeBypass
  split
  · exact .inl rfl
  · exact .inr ⟨bypassTreatment s p, rfl⟩

theorem takeMetered_admitsAtMost (s : State) (p : Fin 6) (r : Request) (res : Resolution) :
    AdmitsAtMost p r s (takeMetered s p r res) := by
  have marked := tableOf_countRed s res.group (colourAt s p r res.meter)
  simp only [takeMetered]
  split
  · exact .inl ((tableOf_capture _ p r res _ _).trans marked)
  · exact .inr ⟨_, (tableOf_capture _ p r res _ _).trans (tableOf_admitRequest_congr marked p r _)⟩

theorem takeEnforce_admitsAtMost (s : State) (p : Fin 6) (r : Request) : AdmitsAtMost p r s (takeEnforce s p r) := by
  simp only [takeEnforce]
  split
  · exact .inl (tableOf_capture _ p r _ _ _)
  · exact takeMetered_admitsAtMost s p r _

/-- Past its grant and acceptance a take admits its request or leaves the table (R33, R36). -/
theorem takeRequest_admitsAtMost (s : State) (p : Fin 6) (r : Request) :
    AdmitsAtMost p r (acceptRequest s p) (takeRequest s p r) := by
  simp only [AdmitsAtMost, takeRequest, tableOf_noteHold]
  split
  · exact .inl rfl
  · split
    · exact takeBypass_admitsAtMost _ p r
    · exact takeEnforce_admitsAtMost _ p r

/-- The four conditions under which a port is eligible (R11). -/
theorem eligible_iff (s : State) (p : Fin 6) :
    eligible s p = true ↔
      ∃ r, s.ports[p].slot = some r ∧ s.ports[p].tagLive[r.tag] = false ∧ held s p = false ∧
        s.drain.opState = .running := by
  unfold eligible
  cases s.ports[p].slot with
  | none => simp
  | some r => simp [and_assoc]

theorem grant_eligible {s : State} {p : Fin 6} (h : grant s = some p) : eligible s p = true := List.find?_some h

theorem takeEvent_settled {s : State} (h : TableSettled s) : TableSettled (takeEvent s) := by
  unfold takeEvent
  split
  · exact h
  · rename_i p hgrant
    obtain ⟨r, hslot, hfree, -, -⟩ := (eligible_iff s p).1 (grant_eligible hgrant)
    have accepted := acceptRequest_settled p h
    simp only [hslot]
    rcases takeRequest_admitsAtMost s p r with same | ⟨x, admitted⟩
    · exact accepted.congr same
    · refine (admitRequest_settled x accepted ?_ (h.slots p r (.inl hslot))).congr admitted
      simpa using hfree

/-! ### Resets -/

/-- Nothing live, nothing stored and every tag FREE is in agreement, whatever ORPHAN tags there are (R15, R140). -/
theorem TableSettled.cleared {s : State} (hq : s.queues = .replicate 8 []) (ht : ∀ τ : Fin 32, s.tags[τ].bound = none)
    (hw : s.writeStore = []) (hp : ∀ p : Fin 6, s.ports[p].tagLive = .replicate 8 false) (hslots : SlotsCarried s) :
    TableSettled s := by
  have live : liveDescriptors s = [] := by
    simp [-Fin.getElem_fin, liveDescriptors, queuedDescriptors, issuedDescriptors, hq, ht]
    simp
  refine ⟨⟨?_, ⟨?_, ?_⟩, ?_, hslots⟩, ?_⟩
  · intro p t
    rw [live, hp]
    simp
  · simp [hq]
  · simp [-Fin.getElem_fin, ht]
  · simp [StoreAgrees, live, hw]
  · simp [NoneRanOut, live]

theorem inReset_settled {s : State} (ph : Phase) (cause : ResetCause) (high : Bool) (h : TableSettled s) :
    TableSettled (inReset s ph cause high) := by
  refine .cleared rfl (fun τ => ?_) rfl (fun p => ?_) fun p r hr => ?_
  · simp [inReset, State.reset, TagState.bound]
  · simp [inReset, PortState.reset]
  · exact h.slots p r (.inr (by simpa [inReset, PortState.reset] using hr))

@[simp] theorem TagState.governorReset_bound (x : TagState) : x.governorReset.bound = none := by cases x <;> rfl

theorem governorReset_settled {s : State} (strap : Bool) (h : TableSettled s) : TableSettled (governorReset s strap) := by
  refine .cleared rfl (fun τ => ?_) rfl (fun p => ?_) fun p r hr => ?_
  · simp [governorReset]
  · simp [governorReset]
  · exact h.slots p r (by simpa [governorReset] using hr)

theorem leaveReset_settled {s : State} (e : ResetEnd) (h : TableSettled s) : TableSettled (leaveReset s e) := by
  obtain ⟨⟨tagSets, places, store, slots⟩, noneRanOut⟩ := h
  refine ⟨⟨fun p t => ?_, places, store, fun p r hr => slots p r (.inr ?_)⟩, noneRanOut⟩
  · have sameTags : (leaveReset s e).ports[p].tagLive = s.ports[p].tagLive := by simp [leaveReset, portAtResetEnd]
    rw [sameTags]
    exact tagSets p t
  · have presented : e.stillPresenting[p.val] = true ∧ s.ports[p].channel = some r := by
      simpa [leaveReset, portAtResetEnd] using hr
    exact presented.2

theorem lineResetEvent_settled {s : State} (h : TableSettled s) : TableSettled (lineResetEvent s) := by
  unfold lineResetEvent
  split
  · exact inReset_settled _ _ _ h
  · exact h.congr rfl
  · exact h.congr rfl

theorem endOfResetEvent_settled {s : State} (e : ResetEnd) (h : TableSettled s) : TableSettled (endOfResetEvent s e) := by
  unfold endOfResetEvent
  split
  · exact h.congr rfl
  · split
    · exact leaveReset_settled e h
    · exact h.congr rfl
  · split
    · exact leaveReset_settled e h
    · exact h.congr rfl

/-! ### Frames -/

@[simp] theorem tableOf_quiet (s : State) : tableOf s.quiet = tableOf s := rfl
@[simp] theorem tableOf_withSdo (s : State) (bits : List Bool) : tableOf (withSdo s bits) = tableOf s := rfl
@[simp] theorem tableOf_endFrame (s : State) (r : ResultCode) : tableOf (endFrame s r) = tableOf s := rfl
@[simp] theorem tableOf_discardFrame (s : State) : tableOf (discardFrame s) = tableOf s := rfl
@[simp] theorem tableOf_leaveOpen (s : State) (o : OpenFrame) : tableOf (leaveOpen s o) = tableOf s := rfl

/-- Every next state the outcome gives is settled. -/
def NextSettled (o : Host.Outcome State Fault Refusal) : Prop := ∀ t, o = .next t → TableSettled t

theorem nextSettled_next {t : State} (h : TableSettled t) : NextSettled (.next t) := by
  rintro _ ⟨⟩
  exact h

theorem whileRunning_settled {s : State} {f : State → State} (h : TableSettled s)
    (hf : ∀ {u : State}, TableSettled u → TableSettled (f u)) : NextSettled (whileRunning s f) := by
  refine nextSettled_next ?_
  split
  · exact hf (h.congr rfl)
  · exact h.congr rfl

theorem runFrame_settled {s : State} (f : FrameBits) (code want : Nat) (snap : Option Snapshot)
    {act : State → State × ResultCode} (h : TableSettled s)
    (hact : ∀ {u : State}, TableSettled u → TableSettled (act u).1) : TableSettled (runFrame s f code want snap act) := by
  cases hend : f.ended with
  | false =>
    rw [runFrame_goesOn s code want snap act hend]
    exact h.congr (tableOf_leaveOpen _ _)
  | true =>
    rw [runFrame_ended s code want snap act hend]
    by_cases hlen : f.edges code = 8 * want
    · rw [closeFrame_rightLength _ _ _ _ _ _ hlen]
      exact (hact (h.congr (by simp))).congr (tableOf_endFrame _ _)
    · rw [closeFrame_wrongLength _ _ _ _ _ _ hlen]
      exact h.congr (by simp)

theorem commandFrame_settled {s : State} (c : Command) (f : FrameBits) {act : State → State × ResultCode}
    (h : TableSettled s) (hact : ∀ {u : State}, TableSettled u → TableSettled (act u).1) :
    NextSettled (commandFrame s c f act) := by
  refine nextSettled_next ?_
  split
  · exact runFrame_settled f 1 c.frameLength none h hact
  · exact h.congr rfl

theorem tableFrame_settled {s : State} (t : Table) (f : FrameBits) {act : Byte → List Byte → State → State × ResultCode}
    (h : TableSettled s) (hact : ∀ b d u, tableOf (act b d u).1 = tableOf u) : NextSettled (tableFrame s t f act) := by
  refine nextSettled_next ?_
  split
  · exact runFrame_settled f 2 t.frameLength none h fun hu => hu.congr (hact _ _ _)
  · exact h.congr rfl

theorem readFrame_settled {s : State} (m : FrameMoment) (f : FrameBits) (code want : Nat) (snap : Snapshot)
    {act : Snapshot → State → State × ResultCode} (h : TableSettled s) (hact : ∀ o u, tableOf (act o u).1 = tableOf u) :
    NextSettled (readFrame s m f code want snap act) := by
  refine nextSettled_next ?_
  cases m with
  | opening =>
    simp only
    split
    · exact runFrame_settled f code want _ h fun hu => hu.congr (hact _ _)
    · exact h.congr rfl
  | resuming =>
    simp only
    split
    · split
      · exact runFrame_settled f code want _ h fun hu => hu.congr (hact _ _)
      · exact h.congr rfl
    · exact h.congr rfl

theorem badFrameEvent_settled {s : State} (f : FrameBits) (h : TableSettled s) : TableSettled (badFrameEvent s f) := by
  unfold badFrameEvent
  split
  · split
    · exact h.congr (by simp)
    · exact h.congr (tableOf_leaveOpen _ _)
  · exact h.congr rfl

/-! ### What the frames' commands do to the table -/

theorem tableOf_popEnd (o : Snapshot) (s : State) : tableOf (popEnd o s).1 = tableOf s := by
  unfold popEnd
  split <;> rfl

theorem tableOf_clearGroupAct (f : FrameBits) (s : State) : tableOf (clearGroupAct f s).1 = tableOf s := by
  unfold clearGroupAct
  split <;> rfl

theorem tableOf_clearEventsAct (f : FrameBits) (s : State) : tableOf (clearEventsAct f s).1 = tableOf s := by
  unfold clearEventsAct
  split
  · exact tableOf_eq_iff.2 ⟨rfl, rfl, rfl, rfl⟩
  · rfl

theorem tableOf_drainAct (s : State) : tableOf (drainAct s).1 = tableOf s := by
  unfold drainAct
  split <;> rfl

theorem tableOf_setModeAct (f : FrameBits) (s : State) : tableOf (setModeAct f s).1 = tableOf s := by
  unfold setModeAct
  split
  · rfl
  · split
    · rw [apply_ite tableOf]
      exact ite_self (tableOf s)
    · rfl

theorem tableOf_setSeedAct (f : FrameBits) (s : State) : tableOf (setSeedAct f s).1 = tableOf s := by
  unfold setSeedAct
  split
  · rfl
  · exact tableOf_eq_iff.2 ⟨rfl, rfl, rfl, rfl⟩

@[simp] theorem TagState.reclaimed_bound (x : TagState) : x.reclaimed.bound = x.bound := by cases x <;> rfl

theorem reclaimAct_settled {s : State} (h : TableSettled s) : TableSettled (reclaimAct s).1 :=
  h.unbound (by simp only [reclaimAct]) (by simp only [reclaimAct]) (by simp only [reclaimAct]) fun τ => by
    simp [reclaimAct]

theorem tableOf_writeGlobalEntry (b : Byte) (d : List Byte) (s : State) :
    tableOf (writeGlobalEntry b d s).1 = tableOf s := by
  unfold writeGlobalEntry
  split <;> rfl

theorem tableOf_writePortEntry (b : Byte) (d : List Byte) (s : State) : tableOf (writePortEntry b d s).1 = tableOf s := by
  unfold writePortEntry
  split
  · rfl
  · split <;> rfl

theorem tableOf_writeClassEntry (b : Byte) (d : List Byte) (s : State) :
    tableOf (writeClassEntry b d s).1 = tableOf s := by
  unfold writeClassEntry
  split
  · rfl
  · split <;> rfl

theorem tableOf_writeMeterEntry (b : Byte) (d : List Byte) (s : State) :
    tableOf (writeMeterEntry b d s).1 = tableOf s := by
  unfold writeMeterEntry
  split
  · rfl
  · split <;> rfl

theorem tableOf_writePatternEntry (b : Byte) (d : List Byte) (s : State) :
    tableOf (writePatternEntry b d s).1 = tableOf s := by
  unfold writePatternEntry
  split
  · rfl
  · split <;> rfl

theorem tableOf_writeActionEntry (b : Byte) (d : List Byte) (s : State) :
    tableOf (writeActionEntry b d s).1 = tableOf s := by
  unfold writeActionEntry
  split
  · rfl
  · split <;> rfl

theorem tableOf_writeMaskEntry (b : Byte) (d : List Byte) (s : State) : tableOf (writeMaskEntry b d s).1 = tableOf s := by
  unfold writeMaskEntry
  split <;> rfl

/-! ### Every step -/

/-- Every command keeps the table settled. -/
theorem exec_settled (c : Instr) {s : State} (h : TableSettled s) : NextSettled (exec c s) := by
  cases c with
  | requestPresented p r => exact nextSettled_next (presentRequest_settled p r (h.congr rfl))
  | take => exact whileRunning_settled h takeEvent_settled
  | issue ready => exact whileRunning_settled (h.congr rfl : TableSettled (withReady s ready)) issueEvent_settled
  | completion τ status data => exact whileRunning_settled h (completionEvent_settled τ status data)
  | tick => exact whileRunning_settled h tickEvent_settled
  | expiry => exact whileRunning_settled h expiryEvent_settled
  | quiesceChange e =>
    exact whileRunning_settled (h.congr rfl : TableSettled (withQuiesce s e)) fun hu => hu.congr rfl
  | powerOnReset => exact nextSettled_next (inReset_settled _ _ _ h)
  | lineReset => exact nextSettled_next (lineResetEvent_settled h)
  | readEntry m t f => exact readFrame_settled m f _ _ _ h fun _ _ => rfl
  | writeEntry t f => exact tableFrame_settled (act := fun _ _ => refuseWrite) t.table f h fun _ _ _ => rfl
  | writeGlobal f => exact tableFrame_settled .global f h tableOf_writeGlobalEntry
  | writePort f => exact tableFrame_settled .port f h tableOf_writePortEntry
  | writeClass f => exact tableFrame_settled .cls f h tableOf_writeClassEntry
  | writeMeter f => exact tableFrame_settled .meter f h tableOf_writeMeterEntry
  | meterLoad f => exact tableFrame_settled .meter f h tableOf_writeMeterEntry
  | writeRulePattern f => exact tableFrame_settled .rulePattern f h tableOf_writePatternEntry
  | writeRuleAction f => exact tableFrame_settled .ruleAction f h tableOf_writeActionEntry
  | writeEventMask f => exact tableFrame_settled .eventMask f h tableOf_writeMaskEntry
  | popCapture m f => exact readFrame_settled m f _ _ _ h tableOf_popEnd
  | swapBanks f => exact commandFrame_settled .swapBanks f h fun hu => hu.congr rfl
  | clearGroup f => exact commandFrame_settled .clearGroup f h fun hu => hu.congr (tableOf_clearGroupAct f _)
  | clearAllCounters f => exact commandFrame_settled .clearAllCounters f h fun hu => hu.congr rfl
  | clearEvents f => exact commandFrame_settled .clearEvents f h fun hu => hu.congr (tableOf_clearEventsAct f _)
  | clearCause f => exact commandFrame_settled .clearCause f h fun hu => hu.congr rfl
  | drain f => exact commandFrame_settled .drain f h fun hu => hu.congr (tableOf_drainAct _)
  | release f => exact commandFrame_settled .release f h fun hu => hu.congr rfl
  | setMode f => exact commandFrame_settled .setMode f h fun hu => hu.congr (tableOf_setModeAct f _)
  | setSeed f => exact commandFrame_settled .setSeed f h fun hu => hu.congr (tableOf_setSeedAct f _)
  | reclaimTags f => exact commandFrame_settled .reclaimTags f h reclaimAct_settled
  | governorReset strap f => exact commandFrame_settled .governorReset f h (governorReset_settled strap)
  | badFrame f => exact nextSettled_next (badFrameEvent_settled f h)
  | endOfReset e => exact nextSettled_next (endOfResetEvent_settled e h)
  | csNHighAfterReset => exact whileRunning_settled h fun hu => hu.congr rfl

theorem step_nil {s : State} (h : s.pending = []) : step s = .next (refclkPeriod s) := by simp only [step, h]

theorem step_cons {s : State} {c : Instr} {rest : List Instr} (h : s.pending = c :: rest) :
    step s = exec c { s with pending := rest } := by simp only [step, h]

theorem step_settled {s : State} (h : TableSettled s) : NextSettled (step s) := by
  cases hp : s.pending with
  | nil => exact step_nil hp ▸ nextSettled_next (refclkPeriod_settled h)
  | cons c rest => exact step_cons hp ▸ exec_settled c (h.congr rfl)

/-- Settles O57: the table is settled after every step, by the command or the period the step runs. -/
theorem tagsPlacesAndStoreKept : Obligations.TagsPlacesAndStoreKept := by
  intro s t tagSets places noneRanOut store slots hstep
  obtain ⟨⟨tagSets', places', store', slots'⟩, noneRanOut'⟩ :=
    step_settled ⟨⟨tagSets, places, store, slots⟩, noneRanOut⟩ t hstep
  exact ⟨tagSets', places', noneRanOut', store', slots'⟩

/-! ### The grant -/

/-- In a list that has every value at its distance, the first value to pass a test is the nearest that passes. -/
theorem find_eq_some_iff_nearest {α : Type} {l : List α} {dist : α → Nat} (hat : ∀ a, l[dist a]? = some a)
    (hdist : ∀ (i : Nat) (h : i < l.length), dist l[i] = i) (f : α → Bool) (a : α) :
    l.find? f = some a ↔ f a = true ∧ ∀ b, f b = true → dist a ≤ dist b := by
  rw [List.find?_eq_some_iff_getElem]
  refine and_congr_right fun _ => ⟨?_, fun nearest => ?_⟩
  · rintro ⟨i, hi, rfl, first⟩ b hb
    rw [hdist i hi]
    by_contra hlt
    obtain ⟨_, hval⟩ := List.getElem?_eq_some_iff.1 (hat b)
    have passed := first (dist b) (by omega)
    rw [hval, hb] at passed
    cases passed
  · obtain ⟨hlen, hval⟩ := List.getElem?_eq_some_iff.1 (hat a)
    refine ⟨dist a, hlen, hval, fun i hi => ?_⟩
    by_contra hf
    have := nearest _ (by simpa using hf)
    rw [hdist i (hi.trans hlen)] at this
    omega

/-- The arbiter's order has every port at its distance from the pointer (R13). -/
theorem grantOrder_getElem (ptr p : Fin 6) : (grantOrder ptr)[grantDistance ptr p]? = some p := by
  revert ptr p
  decide

theorem grantDistance_getElem (ptr : Fin 6) (i : Nat) (h : i < (grantOrder ptr).length) :
    grantDistance ptr (grantOrder ptr)[i] = i := by
  have all : ∀ n i : Fin 6, grantDistance n ((grantOrder n)[i.val]'i.isLt) = i.val := by decide
  exact all ptr ⟨i, h⟩

theorem grant_iff (s : State) (p : Fin 6) :
    grant s = some p ↔
      eligible s p = true ∧
        ∀ q : Fin 6, eligible s q = true → grantDistance s.lastGranted p ≤ grantDistance s.lastGranted q :=
  find_eq_some_iff_nearest (grantOrder_getElem s.lastGranted) (grantDistance_getElem s.lastGranted) (eligible s) p

theorem grant_none {s : State} (h : ∀ p : Fin 6, eligible s p = false) : grant s = none :=
  List.find?_eq_none.2 fun p _ => by simp [h p]

theorem takeEvent_noGrant {s : State} (h : grant s = none) : takeEvent s = s := by simp only [takeEvent, h]

theorem takeEvent_granted {s : State} {p : Fin 6} {r : Request} (hg : grant s = some p) (hr : s.ports[p].slot = some r) :
    takeEvent s = takeRequest s p r := by simp only [takeEvent, hg, hr]

theorem exec_take (s : State) : exec .take s = whileRunning s takeEvent := rfl

/-- Settles O6: eligibility by its definition, the grant by the arbiter's order, and the take without a grant. -/
theorem grantIsFirstEligible : Obligations.GrantIsFirstEligible := by
  intro s
  refine ⟨eligible_iff s, grant_iff s, fun h => ?_⟩
  rw [exec_take]
  by_cases hrun : s.phase = .running
  · have none : ∀ p : Fin 6, eligible s.quiet p = false := h.resolve_left fun hne => hne hrun
    rw [whileRunning_running _ hrun, takeEvent_noGrant (grant_none none)]
    rfl
  · rw [whileRunning_inReset _ hrun]
    rfl

/-! ### The boundary denial -/

/-- An event that moves neither a latch nor a PORT record changes no port's HELD state (R91). -/
theorem noteHold_of_same {s t : State} (hhold : t.hold = s.hold) (hrec : t.portRec = s.portRec) : noteHold s t = t := by
  have same : heldPorts t = heldPorts s := by
    simp only [heldPorts, funext fun p => (by simp only [held, hhold, hrec] : held t p = held s p)]
  simp only [noteHold, same, bne_self_eq_false, State.raiseIf, stickyWith_false]

theorem crossesPage_iff (r : Request) : crossesPage r = true ↔ 4096 < r.address.toNat % 4096 + r.beats * 8 := by
  simp only [crossesPage, decide_eq_true_eq]

/-- The first response of an event stands alone on its port's channel (R5, R8). -/
theorem quiet_responses (s : State) (p : Fin 6) : s.quietOut.responses[p] = [] := by
  simp [State.quietOut, Outputs.quiet]

theorem takeBoundary_accepted (s : State) (p : Fin 6) (r : Request) :
    takeBoundary (acceptRequest s.quiet p) p r =
      { count s s.portRec[p].defGroup .denied 1 with
        lastGranted := p
        ports := portsAfterTake s p
        out := answeredAtTake s p r (.denied .boundary) } := by
  have out : (takeBoundary (acceptRequest s.quiet p) p r).out = answeredAtTake s p r (.denied .boundary) := by
    simp only [takeBoundary, respond_out, count_out, acceptRequest_out, quiet_out, quiet_responses, List.nil_append]
    rfl
  rw [← out]
  rfl

/-- Settles O7: the take is the grant, the count and the response, and moves no latch. -/
theorem takeDeniesBoundary : Obligations.TakeDeniesBoundary := by
  intro s p r hrun hg hr hcross
  rw [exec_take, whileRunning_running _ hrun,
    takeEvent_granted (s := s.quiet) (p := p) (r := r) hg hr, takeRequest, (crossesPage_iff r).2 hcross]
  simp only [if_true]
  rw [noteHold_of_same (s := s.quiet) (t := takeBoundary (acceptRequest s.quiet p) p r) rfl rfl, takeBoundary_accepted]

/-! ### The governor reset -/

/-- At the end of a frame SDO has its bits, and the responses of the reset stand alone on their channels (R140, R167). -/
theorem governorReset_out (s : State) (bits : List Bool) (strap : Bool) :
    (governorReset (withSdo s.quiet bits) strap).out =
      { s.quietOut with
        sdo := some bits
        responses := .ofFn fun p => runOfResponses (liveDescriptors s) (.fault .reset) p } := by
  have live : liveDescriptors (withSdo s.quiet bits) = liveDescriptors s := liveDescriptors_congr rfl rfl
  simp only [governorReset, respondAll, live, withSdo_out, quiet_out, quiet_responses, List.nil_append]

/-- Settles O37: a frame of the right length ends in the reset and its result, and no port has been answered before. -/
theorem governorResetCommand : Obligations.GovernorResetCommand := by
  intro strap f s hready hend
  have hexec : exec (.governorReset strap f) s =
      commandFrame s .governorReset f fun t => (governorReset t strap, .done) := rfl
  obtain ⟨hended, hlen⟩ := hend
  rw [hexec, commandFrame_ready _ _ _ hready, runFrame_ended _ _ _ _ _ hended,
    closeFrame_rightLength s.quiet f 1 Command.governorReset.frameLength _ _ hlen, endFrame, governorReset_out]
  rfl

/-! ### Reset values -/

theorem reset_ports (p : Fin 6) : State.reset.ports[p] = PortState.reset := by simp [State.reset]

theorem reset_rules (b : Fin 2) (i : Fin 48) : State.reset.rules[b][i] = Rule.reset := by simp [State.reset]

theorem reset_meters (m : Fin 16) : State.reset.meters[m] = Meter.reset := by simp [State.reset]

theorem reset_portRec (p : Fin 6) : State.reset.portRec[p] = PortRecord.reset p := by simp [State.reset]

theorem reset_classRec (k : Fin 8) : State.reset.classRec[k] = ClassRecord.reset := by simp [State.reset]

theorem reset_queues (k : Fin 8) : State.reset.queues[k] = [] := by simp [State.reset]

theorem reset_tags (t : Fin 32) : State.reset.tags[t] = .free := by simp [State.reset]

theorem reset_enables (g : Fin 24) : State.reset.glob.enables[g] = 0x3F#6 := by simp [State.reset, GlobalRecord.reset]

theorem reset_counterValue (g : Fin 24) (c : Counter) : counterValue State.reset g c = 0#32 := by
  simp [counterValue, State.reset, CounterBank.reset]

theorem reset_countEnabled (g : Fin 24) (c : Counter) : countEnabled State.reset g c = true := by
  rw [countEnabled, reset_enables]
  cases c <;> rfl

theorem reset_half (g : Fin 24) : State.reset.counters.half[g] = false := by simp [State.reset, CounterBank.reset]

theorem reset_holdPort (p : Fin 6) : State.reset.hold.port[p] = false := by simp [State.reset, HoldLatches.reset]

theorem reset_holdPace (p : Fin 6) : State.reset.hold.pace[p] = false := by simp [State.reset, HoldLatches.reset]

theorem reset_held (p : Fin 6) : held State.reset p = false := by
  simp only [held, reset_portRec, reset_holdPort, reset_holdPace, PortRecord.reset, Bool.false_and, Bool.or_self]

theorem reset_tagLive (p : Fin 6) (t : Fin 8) : State.reset.ports[p].tagLive[t] = false := by
  simp [State.reset, PortState.reset]

theorem reset_occ (k : Fin 8) : State.reset.loads.occ[k] = 0 := by simp [State.reset, Loads.reset]

theorem reset_portLoad (p : Fin 6) : State.reset.loads.portLoad[p] = 0 := by simp [State.reset, Loads.reset]

theorem reset_deficit (k : Fin 8) : State.reset.sched.deficit[k] = 0 := by simp [State.reset, Sched.reset]

/-- With every event masked ALERT is low, whatever flags stand. -/
theorem reset_alertLine : alertLine State.reset = false := by
  have masked : alertTerms State.reset = 0#10 := BitVec.and_zero
  rw [alertLine, masked]
  rfl

/-- Settles O4: scalar fields by the record, entries of tables by the lemma of their block. -/
theorem resetStateValues : Obligations.ResetStateValues := by
  have slots (p : Fin 6) : State.reset.ports[p].slot = none ∧ State.reset.ports[p].channel = none := by
    rw [reset_ports]
    exact ⟨rfl, rfl⟩
  have rules (b : Fin 2) (i : Fin 48) : State.reset.rules[b][i].pattern = Pattern.reset ∧
      State.reset.rules[b][i].action = Action.reset := by
    rw [reset_rules]
    exact ⟨rfl, rfl⟩
  refine ⟨⟨rfl, rfl, rfl⟩, fun p => ⟨(slots p).1, (slots p).2, reset_tagLive p⟩, rfl, rfl, rules, rfl, rfl, reset_meters,
    ⟨rfl, rfl, rfl, rfl, rfl⟩, ⟨rfl, rfl, rfl, rfl, reset_occ, reset_portLoad⟩, rfl, rfl, fun p => ?_, fun p => ?_,
    ⟨rfl, fun p => ⟨reset_holdPort p, reset_holdPace p, reset_held p⟩⟩, reset_classRec,
    fun k => ⟨reset_deficit k, reset_queues k⟩, rfl, reset_tags, ⟨rfl, rfl, rfl, rfl⟩,
    ⟨rfl, fun g c => ⟨reset_enables g, reset_counterValue g c, reset_half g, reset_countEnabled g c⟩⟩, rfl,
    ⟨rfl, rfl, reset_alertLine⟩, rfl, rfl, rfl, rfl, rfl⟩
  · simp only [reset_portRec]
    exact ⟨rfl, rfl, rfl, rfl, by simp [PortRecord.reset], rfl⟩
  · simp only [reset_portRec]
    exact ⟨rfl, rfl, rfl, rfl, rfl, rfl, rfl, rfl⟩

/-! ### The queue, every command, and presentation -/

/-- Settles O1: it is what a step does where the queue is not empty. -/
theorem stepRunsFrontCommand : Obligations.StepRunsFrontCommand := fun _ _ _ h => step_cons h

/-- Settles O3: every arm of `exec` ends in the one state its event or frame leaves. -/
theorem everyCommandAnswersNext : Obligations.EveryCommandAnswersNext := by
  intro c s
  cases c <;> exact ⟨_, rfl⟩

theorem presentRequest_captured {s : State} {p : Fin 6} {r : Request} (hfit : r.dataFits = true) (hrun : s.phase = .running)
    (hslot : s.ports[p].slot = none) :
    presentRequest s p r =
      { s with ports := s.ports.set p { s.ports[p] with channel := some r, slot := some r } } := by
  simp only [presentRequest, hrun, hslot, Request.carried_of_dataFits hfit, and_self, if_true]

theorem presentRequest_standing {s : State} {p : Fin 6} {r : Request} (hfit : r.dataFits = true)
    (h : s.phase ≠ .running ∨ s.ports[p].slot ≠ none) :
    presentRequest s p r = { s with ports := s.ports.set p { s.ports[p] with channel := some r } } := by
  simp only [presentRequest, Request.carried_of_dataFits hfit, if_neg (not_and_or.2 h)]

/-- Settles O5: by whether the port captures the presentation. -/
theorem presentationCaptured : Obligations.PresentationCaptured := by
  intro p r s hfit
  have hexec : exec (.requestPresented p r) s = .next (presentRequest s.quiet p r) := rfl
  refine ⟨fun hrun hslot => ?_, fun h => ?_⟩
  · rw [hexec, presentRequest_captured (s := s.quiet) hfit hrun hslot]
    rfl
  · rw [hexec, presentRequest_standing (s := s.quiet) hfit h]
    rfl

end Sys2Proof.Machine
end

section
/-! PROOFS. The rule table and classification: the frames that write rules, swap banks, seed the lottery or reclaim tags, the
invariants at reset, matching and resolution, the takes in BYPASS and ENFORCE mode, and the bytes of entries and records. -/

namespace Sys2Proof.Machine

/-! ### Frames that end with the right length -/

/-- The state in which the command of an ending frame acts: SDO has the frame's bits (R167, R169). -/
def atFrameEnd (s : State) (f : FrameBits) (code : Nat) : State := withSdo s.quiet (shiftedOut s f code [])

/-- A command's frame of the right length leaves what the command does at its end, and the result (R168, R169). -/
theorem commandFrame_ends {s : State} {c : Command} {f : FrameBits} {act : State → State × ResultCode} {u : State}
    {r : ResultCode} (hready : frameReady s = true) (hend : endsAt f 1 c.frameLength)
    (hact : act (atFrameEnd s f 1) = (u, r)) : commandFrame s c f act = .next (endFrame u r) := by
  obtain ⟨hended, hlen⟩ := hend
  rw [commandFrame_ready _ _ _ hready, runFrame_ended _ _ _ _ _ hended, closeFrame_rightLength _ _ _ _ _ _ hlen]
  exact congrArg (fun x : State × ResultCode => Host.Outcome.next (endFrame x.1 x.2)) hact

/-- A table write's frame of the right length leaves what the write makes of its index byte and its entry (R167, R172). -/
theorem tableFrame_ends {s : State} {t : Table} {f : FrameBits} {act : Byte → List Byte → State → State × ResultCode}
    {u : State} {r : ResultCode} (hready : frameReady s = true) (hend : endsAt f 2 t.frameLength)
    (hact : act (f.bytes.headD 0#8) f.bytes.tail (atFrameEnd s f 2) = (u, r)) :
    tableFrame s t f act = .next (endFrame u r) := by
  obtain ⟨hended, hlen⟩ := hend
  rw [tableFrame_ready _ _ _ hready, runFrame_ended _ _ _ _ _ hended, closeFrame_rightLength _ _ _ _ _ _ hlen]
  exact congrArg (fun x : State × ResultCode => Host.Outcome.next (endFrame x.1 x.2)) hact

/-! ### Rule writes -/

theorem ruleIndex_ofNat (b : Fin 2) (i : Fin 48) : ruleIndex (BitVec.ofNat 8 (128 * b.val + i.val)) = some i := by
  have hval : (BitVec.ofNat 8 (128 * b.val + i.val)).toNat % 128 = i.val := by
    simp only [BitVec.toNat_ofNat]
    omega
  simp only [ruleIndex, hval, i.isLt, dif_pos]

theorem ruleBank_ofNat (b : Fin 2) (i : Fin 48) : ruleBank (BitVec.ofNat 8 (128 * b.val + i.val)) = b := by
  revert b i
  decide

theorem ruleIndex_outOfRange {b : Byte} (h : 48 ≤ b.toNat % 128) : ruleIndex b = none := by
  simp only [ruleIndex, Nat.not_lt.2 h, dite_false]

/-- The write of one half of a rule: to the EDIT bank, if the entry has passed its check (R37 to R39). -/
def writeRuleHalf (ok : Bool) (half : Rule → Rule) (b : Byte) (s : State) : State × ResultCode :=
  match ruleIndex b with
  | none => refuseWrite s
  | some i =>
    if ruleBank b ≠ s.activeBank ∧ ok then (setRule s (ruleBank b) i (half s.rules[ruleBank b][i]), .done)
    else refuseWrite s

theorem writePatternEntry_eq (b : Byte) (d : List Byte) (s : State) :
    writePatternEntry b d s = writeRuleHalf (patternOk d) (fun r => { r with pattern := patternOf d }) b s := rfl

theorem writeActionEntry_eq (b : Byte) (d : List Byte) (s : State) :
    writeActionEntry b d s = writeRuleHalf (actionOk d) (fun r => { r with action := actionOf d }) b s := rfl

theorem writeRuleHalf_edit {s : State} (half : Rule → Rule) {b : Fin 2} (i : Fin 48) (h : b ≠ s.activeBank) :
    writeRuleHalf true half (BitVec.ofNat 8 (128 * b.val + i.val)) s = (setRule s b i (half s.rules[b][i]), .done) := by
  simp only [writeRuleHalf, ruleIndex_ofNat, ruleBank_ofNat, ne_eq, h, not_false_eq_true, and_self, if_true]

theorem writeRuleHalf_active {s : State} (ok : Bool) (half : Rule → Rule) {b : Fin 2} (i : Fin 48) (h : b = s.activeBank) :
    writeRuleHalf ok half (BitVec.ofNat 8 (128 * b.val + i.val)) s = (s, .refused) := by
  simp only [writeRuleHalf, ruleIndex_ofNat, ruleBank_ofNat, h, ne_eq, not_true_eq_false, false_and, if_false, refuseWrite]

theorem writeRuleHalf_outOfRange (s : State) {b : Byte} (ok : Bool) (half : Rule → Rule) (h : 48 ≤ b.toNat % 128) :
    writeRuleHalf ok half b s = (s, .refused) := by
  simp only [writeRuleHalf, ruleIndex_outOfRange h, refuseWrite]

theorem writeRuleHalf_failing (s : State) (b : Byte) (half : Rule → Rule) :
    writeRuleHalf false half b s = (s, .refused) := by
  cases h : ruleIndex b <;> simp [writeRuleHalf, h, refuseWrite]

/-- What the frame of a rule write does, for either half of a rule. -/
theorem ruleFrame_outcome {s : State} {t : Table} {f : FrameBits} {ok : Bool} {half : Rule → Rule}
    {act : Byte → List Byte → State → State × ResultCode} (hready : frameReady s = true)
    (hend : endsAt f 2 t.frameLength) (b : Fin 2) (i : Fin 48)
    (hact : ∀ u, act (f.bytes.headD 0#8) f.bytes.tail u = writeRuleHalf ok half (f.bytes.headD 0#8) u) :
    (f.bytes.headD 0#8 = BitVec.ofNat 8 (128 * b.val + i.val) → b ≠ s.activeBank → ok = true →
      tableFrame s t f act =
        .next { afterFrame s f 2 [] .done with rules := s.rules.set b (s.rules[b].set i (half s.rules[b][i])) }) ∧
    ((f.bytes.headD 0#8 = BitVec.ofNat 8 (128 * b.val + i.val) ∧ b = s.activeBank) ∨
        48 ≤ (f.bytes.headD 0#8).toNat % 128 ∨ ok = false →
      tableFrame s t f act = .next (afterFrame s f 2 [] .refused)) := by
  refine ⟨fun hidx hedit hok => ?_, fun h => ?_⟩
  · have written := writeRuleHalf_edit (s := atFrameEnd s f 2) half i hedit
    rw [← hidx, ← hok] at written
    exact tableFrame_ends hready hend ((hact _).trans written)
  · have refused : writeRuleHalf ok half (f.bytes.headD 0#8) (atFrameEnd s f 2) = (atFrameEnd s f 2, .refused) := by
      rcases h with ⟨hidx, hactive⟩ | hrange | hok
      · exact hidx ▸ writeRuleHalf_active (s := atFrameEnd s f 2) ok half i hactive
      · exact writeRuleHalf_outOfRange _ ok half hrange
      · exact hok ▸ writeRuleHalf_failing _ _ half
    exact tableFrame_ends hready hend ((hact _).trans refused)

/-- Settles O50: the two writes differ in the half they replace and in its check. -/
theorem writeRuleFrames : Obligations.WriteRuleFrames := by
  intro f s b i hready
  exact ⟨fun hend => ruleFrame_outcome (t := .rulePattern) hready hend b i (writePatternEntry_eq _ _),
    fun hend => ruleFrame_outcome (t := .ruleAction) hready hend b i (writeActionEntry_eq _ _)⟩

/-! ### Numbers in a list of bytes -/

theorem numAt_zero (d : List Byte) (i : Nat) : numAt d i 0 = 0 := by simp [numAt, leNat]

/-- The number in `n + 1` bytes: the first of them and 256 times the number in the others (R173). -/
theorem numAt_succ (d : List Byte) (i n : Nat) : numAt d i (n + 1) = natAt d i + 256 * numAt d (i + 1) n := by
  by_cases h : i < d.length
  · have first : natAt d i = (d[i]).toNat := by simp [natAt, byteAt, h]
    rw [first, numAt, List.drop_eq_getElem_cons h, List.take_succ_cons]
    rfl
  · have beyond : ∀ j, i ≤ j → d.drop j = [] := fun j hj => List.drop_eq_nil_of_le (by omega)
    simp [numAt, natAt, byteAt, beyond i, beyond (i + 1), leNat, not_lt.1 h]

theorem numAt_two (d : List Byte) (i : Nat) : numAt d i 2 = natAt d i + 256 * natAt d (i + 1) := by
  simp only [numAt_succ, numAt_zero, Nat.mul_zero, Nat.add_zero]

theorem natAt_lt (d : List Byte) (i : Nat) : natAt d i < 256 := (byteAt d i).isLt

theorem natAt_eq_zero (d : List Byte) (i : Nat) : natAt d i = 0 ↔ byteAt d i = 0#8 := by
  rw [← BitVec.toNat_inj]
  rfl

/-! ### SWAP_BANKS, SET_SEED, RECLAIM_TAGS -/

/-- Exchanging the banks makes the other one ACTIVE (R41). -/
theorem bank_add_one (b : Fin 2) : b + 1 = if b = 0 then 1 else 0 := by
  revert b
  decide

/-- The seed's two bytes, least significant first, as the register holds them (R80, R173). -/
theorem seed_eq_append (d : List Byte) (i : Nat) :
    BitVec.ofNat 16 (numAt d i 2) = byteAt d (i + 1) ++ byteAt d i := by
  apply BitVec.eq_of_toNat_eq
  have low : (byteAt d i).toNat < 2 ^ 8 := (byteAt d i).isLt
  have high := natAt_lt d (i + 1)
  rw [BitVec.toNat_append, ← Nat.shiftLeft_add_eq_or_of_lt low, numAt_two, BitVec.toNat_ofNat, Nat.shiftLeft_eq]
  simp only [natAt] at high ⊢
  omega

theorem seed_eq_zero (d : List Byte) (i : Nat) :
    numAt d i 2 = 0 ↔ byteAt d i = 0#8 ∧ byteAt d (i + 1) = 0#8 := by
  rw [numAt_two, ← natAt_eq_zero, ← natAt_eq_zero]
  omega

theorem setSeedAct_zero {f : FrameBits} (s : State) (h : numAt f.bytes 2 2 = 0) : setSeedAct f s = (s, .refused) := by
  simp only [setSeedAct, h, if_true]

theorem setSeedAct_nonzero {f : FrameBits} (s : State) (h : numAt f.bytes 2 2 ≠ 0) :
    setSeedAct f s = ({ s with lottery := byteAt f.bytes 3 ++ byteAt f.bytes 2 }, .done) := by
  simp only [setSeedAct, h, if_false, seed_eq_append]

theorem TagState.reclaimed_eq (x : TagState) : x.reclaimed = if x.isOrphan then .free else x := by cases x <;> rfl

theorem reclaimAct_eq (s : State) :
    reclaimAct s = ({ s with tags := .ofFn fun t => if s.tags[t].isOrphan then .free else s.tags[t] }, .done) := by
  simp only [reclaimAct, TagState.reclaimed_eq]

theorem swapAct_eq (s : State) :
    swapAct s = ({ s with activeBank := if s.activeBank = 0 then 1 else 0 }, .done) := by
  simp only [swapAct, bank_add_one]

/-- Settles O52: each frame ends in what its command does. -/
theorem swapSeedReclaim : Obligations.SwapSeedReclaim := by
  intro f s hready
  refine ⟨fun hend => ?_, fun hend hseed => ?_, fun hend hlow hhigh => ?_, fun hend => ?_⟩
  · exact commandFrame_ends (c := .swapBanks) hready hend (swapAct_eq _)
  · have nonzero : numAt f.bytes 2 2 ≠ 0 := fun h => not_and_or.2 hseed ((seed_eq_zero _ _).1 h)
    exact commandFrame_ends (c := .setSeed) hready hend (setSeedAct_nonzero _ nonzero)
  · exact commandFrame_ends (c := .setSeed) hready hend (setSeedAct_zero _ ((seed_eq_zero _ _).2 ⟨hlow, hhigh⟩))
  · have reclaimed := commandFrame_ends (c := .reclaimTags) hready hend (reclaimAct_eq _)
    exact reclaimed

/-! ### The invariants at reset -/

theorem liveDescriptors_reset : liveDescriptors State.reset = [] := by
  simp [liveDescriptors, queuedDescriptors, issuedDescriptors, State.reset, TagState.bound]

/-- With nothing live every load is 0, and no class has a reservation (R66). -/
theorem loadsAgree_reset : LoadsAgree State.reset := by
  have shared : State.reset.loads.sharedLoad = sharedLoadOf State.reset.loads.occ State.reset.classRec := by
    simp [-Fin.getElem_fin, sharedLoadOf, reset_occ]
    rfl
  have capacity : State.reset.loads.sharedCapacity = sharedCapacityOf State.reset.classRec := by
    simp [-Fin.getElem_fin, sharedCapacityOf, reservationSum, reset_classRec, ClassRecord.reset]
    rfl
  rw [LoadsAgree, liveDescriptors_reset]
  exact ⟨rfl, rfl, reset_occ, reset_portLoad, shared, capacity⟩

/-- Nothing is live, stored or presented. -/
theorem tableSettled_reset : TableSettled State.reset := by
  refine .cleared rfl (fun t => ?_) rfl (fun p => ?_) (fun p r hr => ?_)
  · rw [reset_tags]
    rfl
  · rw [reset_ports]
    rfl
  · rw [reset_ports] at hr
    rcases hr with hr | hr <;> cases hr

theorem pairsLegal_reset : PairsLegal ⟨.reset, .reset, .reset⟩ := by
  intro c
  cases c <;> exact ⟨le_rfl, le_rfl⟩

theorem metersWithin_reset : MetersWithin State.reset := by
  intro m
  rw [reset_meters]
  unfold Meter.within Meter.reset
  decide

theorem settingsLegal_reset : SettingsLegal State.reset := by
  have sum : reservationSum State.reset.classRec ≤ Config.reservationCap := by
    simp [-Fin.getElem_fin, reservationSum, reset_classRec, ClassRecord.reset]
  refine ⟨⟨by decide, by decide, by decide, by decide, pairsLegal_reset⟩, fun p => ?_, fun k => ?_, sum⟩
  · rw [reset_portRec]
    simp [PortLegal, PortRecord.reset]
  · rw [reset_classRec]
    exact ⟨by decide, by decide, by decide, pairsLegal_reset⟩

theorem deficitsLegal_reset : DeficitsLegal State.reset := by
  intro k
  rw [reset_deficit]
  exact ⟨Nat.zero_le _, fun _ => rfl, fun _ => rfl⟩

/-- The reset state is in BYPASS mode with every latch OFF, so nothing is asked of ENFORCE mode. -/
theorem latchesSettled_reset : LatchesSettled State.reset := nofun

theorem opStateAgrees_reset : OpStateAgrees State.reset :=
  ⟨⟨fun _ => rfl, fun _ => rfl⟩, nofun, fun _ => rfl⟩

/-- Settles O55: each invariant by the lemma of its block. -/
theorem invariantsAtReset : Obligations.InvariantsAtReset := by
  obtain ⟨⟨tagSets, places, store, slots⟩, noneRanOut⟩ := tableSettled_reset
  have ticks : TickCounterBelow State.reset := by unfold TickCounterBelow; decide
  have lottery : LotteryNonzero State.reset := by unfold LotteryNonzero State.reset; decide
  exact ⟨loadsAgree_reset, ⟨Nat.zero_le _, Nat.zero_le _⟩, tagSets, places, store, slots, noneRanOut, metersWithin_reset,
    settingsLegal_reset, lottery, deficitsLegal_reset, Nat.zero_le _, ticks, fun _ => rfl, latchesSettled_reset,
    opStateAgrees_reset, fun h => absurd rfl h⟩

/-! ### Matching -/

/-- A field of a pattern asks for its test only where it is present (R21). -/
theorem field_iff {present test : Bool} {P : Prop} (h : test = true ↔ P) :
    (!present || test) = true ↔ (present = true → P) := by
  rw [← h]
  cases present <;> simp

/-- Two addresses agree in a nibble when they agree in its four bits. -/
theorem nibble_eq_iff (x a : Addr) (i : Fin 10) :
    nibble x i = nibble a i ↔ ∀ j < 4, x.getLsbD (4 * i.val + j) = a.getLsbD (4 * i.val + j) := by
  simp only [BitVec.eq_of_getLsbD_eq_iff, nibble, BitVec.getLsbD_extractLsb']
  refine forall₂_congr fun j hj => ?_
  simp only [hj, decide_true, Bool.true_and]

theorem AddrMatch.masked_hits_iff (a : Addr) (mask : BitVec 10) (x : Addr) :
    (AddrMatch.masked a mask).hits x = true ↔
      ∀ i : Fin 10, mask.getLsbD i.val = false → ∀ j < 4,
        x.getLsbD (4 * i.val + j) = a.getLsbD (4 * i.val + j) := by
  simp only [AddrMatch.hits, List.all_eq_true, List.mem_finRange, true_imp_iff, Bool.or_eq_true, beq_iff_eq]
  refine forall_congr' fun i => ?_
  rw [nibble_eq_iff, ← Bool.not_eq_true, imp_iff_or_not, not_not, or_comm]

theorem AddrMatch.range_hits_iff (a b x : Addr) :
    (AddrMatch.range a b).hits x = true ↔ a.toNat ≤ x.toNat ∧ x.toNat ≤ b.toNat := by
  simp only [AddrMatch.hits, Bool.and_eq_true, decide_eq_true_eq, BitVec.le_def]

/-- Settles O12: field by field. -/
theorem patternMatches : Obligations.PatternMatches := by
  intro t p r
  have addr : t.addr.hits r.address = true ↔
      match t.addr with
      | .masked a mask => ∀ i : Fin 10, mask.getLsbD i.val = false → ∀ j < 4,
          r.address.getLsbD (4 * i.val + j) = a.getLsbD (4 * i.val + j)
      | .range a b => a.toNat ≤ r.address.toNat ∧ r.address.toNat ≤ b.toNat := by
    cases t.addr with
    | masked a mask => exact AddrMatch.masked_hits_iff a mask r.address
    | range a b => exact AddrMatch.range_hits_iff a b r.address
  have beats : (decide (t.beatsMin ≤ r.beats) && decide (r.beats ≤ t.beatsMax)) = true ↔
      t.beatsMin ≤ r.beats ∧ r.beats ≤ t.beatsMax := by
    rw [Bool.and_eq_true, decide_eq_true_eq, decide_eq_true_eq]
  simp only [Pattern.hits, Bool.and_eq_true, and_assoc]
  exact and_congr Iff.rfl <| and_congr (field_iff Iff.rfl) <| and_congr (field_iff beq_iff_eq) <|
    and_congr (field_iff addr) <| and_congr (field_iff beats) <| and_congr (field_iff Iff.rfl) <|
    and_congr (field_iff Iff.rfl) (field_iff beq_iff_eq)

/-! ### Resolution -/

/-- Rule `i` of the ACTIVE bank decides an action type: it matches and claims the type, and no rule of a lower index does
both (R28). -/
def Decides {α : Type} (s : State) (p : Fin 6) (r : Request) (sel : Action → Claimed α) (i : Fin 48) : Prop :=
  (s.rules[s.activeBank][i].pattern.hits p r = true ∧ (sel s.rules[s.activeBank][i].action).claim ≠ .absent) ∧
    ∀ j < i, s.rules[s.activeBank][j].pattern.hits p r = true → (sel s.rules[s.activeBank][j].action).claim = .absent

theorem decidingRule_iff {α : Type} (s : State) (p : Fin 6) (r : Request) (sel : Action → Claimed α) (i : Fin 48) :
    decidingRule s.rules[s.activeBank] (matching s p r) sel = some i ↔ Decides s p r sel i := by
  rw [decidingRule, matching, List.find?_filter, ← Fin.find?_eq_find?_finRange, Fin.find?_eq_some_iff]
  simp only [Decides, Bool.and_eq_true, decide_eq_true_eq, bne_iff_ne, Bool.and_eq_false_imp, Bool.decide_and,
    decide_eq_false_iff_not, not_not]

/-- A type's value is claimed by its deciding rule, under SET (R26, R28). -/
theorem claimedValue_iff {α : Type} (s : State) (p : Fin 6) (r : Request) (sel : Action → Claimed α) (v : α) :
    claimedValue s.rules[s.activeBank] (matching s p r) sel = some v ↔
      ∃ i, Decides s p r sel i ∧ (sel s.rules[s.activeBank][i].action).claim = .set ∧
        (sel s.rules[s.activeBank][i].action).value = v := by
  simp only [← decidingRule_iff]
  unfold claimedValue
  cases decidingRule s.rules[s.activeBank] (matching s p r) sel with
  | none => simp [setValue]
  | some i => simp [setValue]

/-- The capture index is that of the deciding rule for NOTIFY, if NOTIFY resolves to YES (R30). -/
theorem resolve_capture_iff (s : State) (p : Fin 6) (r : Request) (i : Fin 48) :
    (resolve s p r).capture = some i ↔
      Decides s p r Action.notify i ∧ s.rules[s.activeBank][i].action.notify.claim = .set ∧
        s.rules[s.activeBank][i].action.notify.value = true := by
  have yes := claimedValue_iff s p r Action.notify true
  simp only [← decidingRule_iff] at yes ⊢
  simp only [resolve]
  split
  · rename_i h
    obtain ⟨j, hdec, hset⟩ := yes.1 h
    rw [hdec]
    constructor
    · rintro ⟨⟩
      exact ⟨rfl, hset⟩
    · exact fun hi => hi.1
  · rename_i h
    exact ⟨nofun, fun hi => absurd (yes.2 ⟨i, hi⟩) h⟩

/-- A matching rule that claims under SET decides if no rule of a lower index matches and claims. -/
theorem decides_set_iff {α : Type} (s : State) (p : Fin 6) (r : Request) (sel : Action → Claimed α) (v : α) (i : Fin 48) :
    (Decides s p r sel i ∧ (sel s.rules[s.activeBank][i].action).claim = .set ∧
        (sel s.rules[s.activeBank][i].action).value = v) ↔
      s.rules[s.activeBank][i].pattern.hits p r = true ∧ (sel s.rules[s.activeBank][i].action).claim = .set ∧
        (sel s.rules[s.activeBank][i].action).value = v ∧
        ∀ j < i, s.rules[s.activeBank][j].pattern.hits p r = true →
          (sel s.rules[s.activeBank][j].action).claim = .absent := by
  constructor
  · rintro ⟨⟨⟨hhit, -⟩, first⟩, hset, hval⟩
    exact ⟨hhit, hset, hval, first⟩
  · rintro ⟨hhit, hset, hval, first⟩
    exact ⟨⟨⟨hhit, by rw [hset]; exact nofun⟩, first⟩, hset, hval⟩

/-- Settles O13: the deciding rules and their values; the defaults are those of `resolve`. -/
theorem resolutionIsFirstMatch : Obligations.ResolutionIsFirstMatch := by
  intro s p r
  exact ⟨fun sel v => (claimedValue_iff s p r sel v).trans (exists_congr fun i => decides_set_iff s p r sel v i),
    rfl, rfl, rfl, rfl, rfl, rfl,
    fun i => (resolve_capture_iff s p r i).trans (decides_set_iff s p r Action.notify true i)⟩

/-! ### The reports of a take -/

/-- A state with the reports of another: its counters, Capture Queue and events. -/
def withReports (v u : State) : State := { v with counters := u.counters, captures := u.captures, events := u.events }

/-! A count, a mark and a capture move the reports alone. -/

theorem countRed_eq_withReports (s : State) (g : Fin 24) (c : Colour) :
    countRed s g c = withReports s (countRed s g c) := by
  unfold countRed
  split <;> rfl

theorem capture_eq_withReports (s : State) (p : Fin 6) (r : Request) (res : Resolution) (c : Option Colour)
    (o : TakeOutcome) : capture s p r res c o = withReports s (capture s p r res c o) := by
  unfold capture
  split <;> rfl

/-! What they report depends on the reports, the settings and the ACTIVE bank alone. -/

theorem count_withReports {v u : State} (h : v.glob = u.glob) (g : Fin 24) (c : Counter) (n : Nat) :
    count (withReports v u) g c n = withReports v (count u g c n) := by
  have same : countEnabled (withReports v u) g c = countEnabled u g c := by
    rw [countEnabled, countEnabled, ← h]
    rfl
  rw [count, same]
  rfl

theorem countAdmission_withReports {v u : State} (h : v.glob = u.glob) (g : Fin 24) (r : Request) :
    countAdmission (withReports v u) g r = withReports v (countAdmission u g r) := by
  rw [countAdmission, count_withReports h, count_withReports (v := v) (u := count u g .admitted 1) h]
  rfl

theorem countRed_withReports {v u : State} (h : v.glob = u.glob) (g : Fin 24) (c : Colour) :
    countRed (withReports v u) g c = withReports v (countRed u g c) := by
  unfold countRed
  split
  · exact count_withReports h g _ _
  · rfl

theorem capture_withReports {v u : State} (h : v.activeBank = u.activeBank) (p : Fin 6) (r : Request) (res : Resolution)
    (c : Option Colour) (o : TakeOutcome) :
    capture (withReports v u) p r res c o = withReports v (capture u p r res c o) := by
  unfold capture
  cases res.capture with
  | none => rfl
  | some i =>
    have same : captureOf (withReports v u) p r i res.cls c o = captureOf u p r i res.cls c o := by
      rw [captureOf, captureOf, ← h]
      rfl
    simp only [same]
    rfl

/-- Captured reports stand beside the same state as the reports before the capture. -/
theorem capture_keeps {s u : State} (h : u = withReports s u) (p : Fin 6) (r : Request) (res : Resolution)
    (c : Option Colour) (o : TakeOutcome) : capture u p r res c o = withReports s (capture u p r res c o) :=
  calc capture u p r res c o = withReports u (capture u p r res c o) := capture_eq_withReports u p r res c o
    _ = withReports (withReports s u) (capture u p r res c o) := by rw [← h]
    _ = withReports s (capture u p r res c o) := rfl

theorem count_keeps {s u : State} (h : u = withReports s u) (g : Fin 24) (c : Counter) (n : Nat) :
    count u g c n = withReports s (count u g c n) :=
  calc count u g c n = withReports u (count u g c n) := rfl
    _ = withReports (withReports s u) (count u g c n) := by rw [← h]
    _ = withReports s (count u g c n) := rfl

theorem noteHold_withReports (s v u : State) :
    noteHold s (withReports v u) = withReports v (u.raiseIf (heldPorts s != heldPorts v) .holdChange) := rfl

/-! ### What a granted take runs -/

/-- The state in which a taken request is classified: the grant is made and the request accepted (R5, R12). -/
def takeAccepted (s : State) (p : Fin 6) : State := acceptRequest s.quiet p

theorem crossesPage_false {r : Request} (h : r.address.toNat % 4096 + r.beats * 8 ≤ 4096) : crossesPage r = false := by
  rw [← Bool.not_eq_true, crossesPage_iff]
  omega

theorem exec_take_granted {s : State} {p : Fin 6} {r : Request} (hrun : s.phase = .running) (hg : grant s = some p)
    (hr : s.ports[p].slot = some r) : exec .take s = .next (takeRequest s.quiet p r) := by
  rw [exec_take, whileRunning_running _ hrun, takeEvent_granted (s := s.quiet) (p := p) (r := r) hg hr]

/-- Past the boundary check a take in BYPASS mode moves no latch (R92). -/
theorem takeRequest_bypass {s : State} {p : Fin 6} {r : Request} (hpage : r.address.toNat % 4096 + r.beats * 8 ≤ 4096)
    (hmode : s.drain.mode = .bypass) : takeRequest s.quiet p r = takeBypass (takeAccepted s p) p r := by
  have kept : (takeBypass (takeAccepted s p) p r).hold = s.quiet.hold ∧
      (takeBypass (takeAccepted s p) p r).portRec = s.quiet.portRec := by
    unfold takeBypass
    split <;> exact ⟨rfl, rfl⟩
  simp only [takeRequest, crossesPage_false hpage, Bool.false_eq_true, if_false, quiet_drain, hmode]
  exact noteHold_of_same kept.1 kept.2

theorem takeRequest_enforce {s : State} {p : Fin 6} {r : Request} (hpage : r.address.toNat % 4096 + r.beats * 8 ≤ 4096)
    (hmode : s.drain.mode = .enforce) :
    takeRequest s.quiet p r = noteHold s.quiet (takeEnforce (takeAccepted s p) p r) := by
  simp only [takeRequest, crossesPage_false hpage, Bool.false_eq_true, if_false, quiet_drain, hmode]
  rfl

/-- A response to the accepted request is the only one of its event (R5, R8). -/
theorem respond_accepted {s u : State} {p : Fin 6} (r : Request) (c : RespCode) (h : u.out = (takeAccepted s p).out) :
    (respond u p (plainResponse r.tag c)).out = answeredAtTake s p r c := by
  simp only [respond_out, h, takeAccepted, acceptRequest_out, quiet_out, quiet_responses, List.nil_append]
  rfl

/-- The ports once the accepted request is admitted (R4, R5). -/
theorem admitRequest_accepted_ports (s : State) (p : Fin 6) (r : Request) (x : Treatment) :
    (admitRequest (takeAccepted s p) p r x).ports = portsAfterAdmission s p r.tag := by
  simp [admitRequest_ports, takeAccepted, acceptRequest_ports, portsAfterAdmission]

/-! ### Takes in BYPASS mode -/

theorem poolFull_iff (l : Loads) (n : Nat) : poolFull l n = true ↔ l.liveCount = 64 ∨ 1024 < l.totalLoad + n := by
  simp only [poolFull, Bool.or_eq_true, decide_eq_true_eq]

theorem takeBypass_full {s : State} (p : Fin 6) {r : Request} (h : poolFull s.loads r.beats = true) :
    takeBypass s p r = takeRetry s p r s.portRec[p].defGroup .pool := by
  simp only [takeBypass, bypassDecision, h, if_true]

theorem takeBypass_room {s : State} (p : Fin 6) {r : Request} (h : poolFull s.loads r.beats = false) :
    takeBypass s p r = countAdmission (admitRequest s p r (bypassTreatment s p)) s.portRec[p].defGroup r := by
  simp only [takeBypass, bypassDecision, h, Bool.false_eq_true, if_false]

/-- Settles O8: by whether the pool and the table have room. -/
theorem takeInBypass : Obligations.TakeInBypass := by
  intro s p r hrun hg hr hpage hmode
  rw [exec_take_granted hrun hg hr, takeRequest_bypass hpage hmode]
  refine ⟨fun hfull => ?_, fun hlive hload => ?_⟩
  · rw [takeBypass_full (s := takeAccepted s p) p ((poolFull_iff s.loads r.beats).2 hfull), takeRetry,
      ← respond_accepted (s := s) (u := count (takeAccepted s p) s.portRec[p].defGroup .retried 1) r (.retry .pool) rfl]
    rfl
  · have room : poolFull s.loads r.beats = false := by
      rw [← Bool.not_eq_true, poolFull_iff]
      omega
    rw [takeBypass_room (s := takeAccepted s p) p room, ← admitRequest_accepted_ports s p r (bypassTreatment s p)]
    rfl

/-! ### Takes in ENFORCE mode -/

theorem takeEnforce_deny {s : State} {p : Fin 6} {r : Request} (h : (resolve s p r).disposition = .deny) :
    takeEnforce s p r = takeDenied s p r (resolve s p r) := by
  simp only [takeEnforce, h, if_true]

theorem takeEnforce_metered {s : State} {p : Fin 6} {r : Request} (h : (resolve s p r).disposition ≠ .deny) :
    takeEnforce s p r = takeMetered s p r (resolve s p r) := by
  simp only [takeEnforce, h, if_false]

/-- The state in which a decided take goes on: its request is accepted and the lottery register is as the decision left it. -/
def takeDecided (s : State) (p : Fin 6) (lot : BitVec 16) : State := { takeAccepted s p with lottery := lot }

theorem countRed_decided (s : State) (p : Fin 6) (lot : BitVec 16) (g : Fin 24) (c : Colour) :
    { countRed (takeAccepted s p) g c with lottery := lot } = withReports (takeDecided s p lot) (countRed s g c) :=
  congrArg (fun u : State => { u with lottery := lot }) (countRed_withReports (v := takeAccepted s p) (u := s) rfl g c)

/-- The mark, the retry and the capture of a take that the decision refuses (R53, R83, R156). -/
theorem takeMetered_refuse {s : State} {p : Fin 6} {r : Request} {res : Resolution} {c : Colour} {why : RetryReason}
    {lot : BitVec 16} (hc : c = colourAt s p r res.meter)
    (h : enforceDecision s p r.beats res.cls c (res.disposition == .critical) = (.refuse why, lot)) :
    takeMetered (takeAccepted s p) p r res =
      capture (takeRetry (withReports (takeDecided s p lot) (countRed s res.group c)) p r res.group why) p r res (some c)
        (.retry why) := by
  subst hc
  have hdec : enforceDecision (takeAccepted s p) p r.beats res.cls (colourAt (takeAccepted s p) p r res.meter)
      (res.disposition == .critical) = (.refuse why, lot) := h
  rw [← countRed_decided]
  simp only [takeMetered, hdec]
  rfl

/-- The mark, the admission and the capture of a take that the decision accepts (R53, R82, R156). -/
theorem takeMetered_accept {s : State} {p : Fin 6} {r : Request} {res : Resolution} {c : Colour} {lot : BitVec 16}
    (hc : c = colourAt s p r res.meter)
    (h : enforceDecision s p r.beats res.cls c (res.disposition == .critical) = (.accept, lot)) :
    takeMetered (takeAccepted s p) p r res =
      capture (takeAdmitted (withReports (takeDecided s p lot) (countRed s res.group c)) p r res c) p r res (some c)
        .admitted := by
  subst hc
  have hdec : enforceDecision (takeAccepted s p) p r.beats res.cls (colourAt (takeAccepted s p) p r res.meter)
      (res.disposition == .critical) = (.accept, lot) := h
  rw [← countRed_decided]
  simp only [takeMetered, hdec]
  rfl

theorem resolve_accepted (s : State) (p : Fin 6) (r : Request) : resolve (takeAccepted s p) p r = resolve s p r := rfl

/-- What a take that is answered at once leaves beside its reports: the grant, the response and the lottery register. -/
def takeAnswered (s : State) (p : Fin 6) (r : Request) (lot : BitVec 16) (code : RespCode) : State :=
  { s with lastGranted := p, ports := portsAfterTake s p, lottery := lot, out := answeredAtTake s p r code }

theorem respond_answered (s u : State) (p : Fin 6) (r : Request) (lot : BitVec 16) (code : RespCode) :
    respond (withReports (takeDecided s p lot) u) p (plainResponse r.tag code) =
      withReports (takeAnswered s p r lot code) u := by
  rw [takeAnswered, ← respond_accepted (s := s) (u := takeAccepted s p) r code rfl]
  rfl

theorem takeRetry_answered {s u : State} (h : u = withReports s u) (p : Fin 6) (r : Request) (lot : BitVec 16)
    (g : Fin 24) (why : RetryReason) :
    takeRetry (withReports (takeDecided s p lot) u) p r g why =
      withReports (takeAnswered s p r lot (.retry why)) (count u g .retried 1) := by
  have glob : s.glob = u.glob := (congrArg State.glob h).symm
  rw [takeRetry, count_withReports (v := takeDecided s p lot) glob, respond_answered]

/-- A denial and a refusal end alike: the answer, and a capture on the reports so far; no latch moves. -/
theorem noteHold_capture_answered {s u : State} (h : u = withReports s u) (p : Fin 6) (r : Request) (res : Resolution)
    (lot : BitVec 16) (code : RespCode) (c : Option Colour) (o : TakeOutcome) :
    noteHold s.quiet (capture (withReports (takeAnswered s p r lot code) u) p r res c o) =
      withReports (takeAnswered s p r lot code) (capture u p r res c o) := by
  have bank : s.activeBank = u.activeBank := (congrArg State.activeBank h).symm
  rw [capture_withReports (v := takeAnswered s p r lot code) bank]
  exact noteHold_of_same rfl rfl

/-- Settles O9: the denial is counted and answered under the lottery register as it was. -/
theorem takeDeniedByRule : Obligations.TakeDeniedByRule := by
  intro s p r hrun hg hr hpage hmode hdeny
  have denied : takeDenied (takeAccepted s p) p r (resolve s p r) =
      capture (withReports (takeAnswered s p r s.lottery (.denied .rule)) (count s (resolve s p r).group .denied 1)) p r
        (resolve s p r) none .deniedRule := by
    rw [← respond_answered]
    rfl
  rw [exec_take_granted hrun hg hr, takeRequest_enforce hpage hmode, takeEnforce_deny (s := takeAccepted s p) hdeny,
    resolve_accepted, denied, noteHold_capture_answered rfl, capture_keeps (s := s) rfl]
  rfl

/-- Settles O10: the mark, the retry and the capture report on one another in turn. -/
theorem takeRefused : Obligations.TakeRefused := by
  intro s p r why lot hrun hg hr hpage hmode hdeny hdec
  have marked := countRed_eq_withReports s (resolve s p r).group (colourAt s p r (resolve s p r).meter)
  rw [exec_take_granted hrun hg hr, takeRequest_enforce hpage hmode, takeEnforce_metered (s := takeAccepted s p) hdeny,
    resolve_accepted, takeMetered_refuse rfl hdec, takeRetry_answered marked,
    noteHold_capture_answered (count_keeps marked _ _ _), capture_keeps (count_keeps marked _ _ _)]
  rfl

/-- An admission makes its counts on the reports, and the rest of it beside them. -/
theorem takeAdmitted_withReports {v u : State} (h : v.glob = u.glob) (p : Fin 6) (r : Request) (res : Resolution)
    (c : Colour) :
    takeAdmitted (withReports v u) p r res c =
      withReports (takeAdmitted v p r res c)
        (count (count u res.group .admitted 1) res.group .admittedBytes (r.beats * 8)) :=
  congrArg (evalLatches · true (fun q => q == p) fun q => charged res.meter c v.portRec[q].paceMeter)
    (countAdmission_withReports (u := u)
      (v := { admitRequest v p r (enforceTreatment v res c) with meters := chargeMeters v.meters res.meter c r.size }) h
      res.group r)

/-- Settles O11: the mark, the counts and the capture report on one another in turn, beside the admission. (The model's own
`takeAdmitted` has the statement's plain name.) -/
theorem takeAdmitted_holds : Obligations.TakeAdmitted := by
  intro s p r res c lot hrun hg hr hpage hmode hres hdeny hc hdec
  subst hres
  have marked := countRed_eq_withReports s (resolve s p r).group c
  have counted := count_keeps (count_keeps marked (resolve s p r).group .admitted 1) (resolve s p r).group .admittedBytes
    (r.beats * 8)
  have glob : s.glob = (countRed s (resolve s p r).group c).glob := (congrArg State.glob marked).symm
  have bank := (congrArg State.activeBank counted).symm
  rw [exec_take_granted hrun hg hr, takeRequest_enforce hpage hmode, takeEnforce_metered (s := takeAccepted s p) hdeny,
    resolve_accepted, takeMetered_accept hc hdec, takeAdmitted_withReports (v := takeDecided s p lot) glob,
    capture_withReports (v := takeAdmitted (takeDecided s p lot) p r (resolve s p r) c) bank, noteHold_withReports]
  dsimp only
  rw [capture_keeps counted, ← admitRequest_accepted_ports s p r (enforceTreatment s (resolve s p r) c)]
  rfl

/-! ### Where the fields of an entry stand -/

theorem indexBelow_ofNat {n : Nat} (hn : n ≤ 256) (i : Fin n) : indexBelow n (BitVec.ofNat 8 i.val) = some i := by
  have hval : (BitVec.ofNat 8 i.val).toNat = i.val := by
    simp only [BitVec.toNat_ofNat]
    omega
  simp only [indexBelow, hval, i.isLt, dif_pos]

/-- A slice that lists one byte for each index has the byte of each at its place. -/
theorem getD_of_slice {e : List Byte} {i n : Nat} {f : Fin n → Byte} (h : (e.drop i).take n = (List.finRange n).map f)
    (g : Fin n) : e.getD (i + g.val) 0#8 = f g := by
  have here : e.getD (i + g.val) 0#8 = ((e.drop i).take n).getD g.val 0#8 := by
    simp [List.getD_eq_getElem?_getD, List.getElem?_drop, g.isLt]
  rw [here, h]
  simp

theorem pairsAt_of_slice {e : List Byte} {i : Nat} {t : PerColour Pair} (h : (e.drop i).take 12 = pairsBytes t) :
    PairsAt e i t := by
  have part (k n : Nat) (hk : k + n ≤ 12) : (e.drop (i + k)).take n = ((pairsBytes t).drop k).take n := by
    rw [← h, List.drop_take, List.drop_drop, List.take_take, min_eq_left (by omega)]
  exact ⟨fieldAt_of_slice (part 0 2 (by decide)), fieldAt_of_slice (part 2 2 (by decide)),
    fieldAt_of_slice (part 4 2 (by decide)), fieldAt_of_slice (part 6 2 (by decide)),
    fieldAt_of_slice (part 8 2 (by decide)), fieldAt_of_slice (part 10 2 (by decide))⟩

theorem globalBytes_layout (s : State) : GlobalLayout s (globalBytes s) := by
  simp only [globalBytes, List.append_assoc]
  exact ⟨rfl, fieldAt_of_slice rfl, fieldAt_of_slice rfl, fieldAt_of_slice rfl, pairsAt_of_slice rfl, fieldAt_of_slice rfl,
    fieldAt_of_slice rfl, rfl, fieldAt_flag rfl,
    fun g => (fieldAt_one _ _ _).2 (getD_of_slice (f := fun g => numByte s.glob.enables[g].toNat) rfl g),
    fieldAt_of_slice rfl, fieldAt_of_slice rfl, fieldAt_of_slice rfl, fieldAt_of_slice rfl, fieldAt_flag rfl⟩

theorem portBytes_layout (s : State) (p : Fin 6) : PortLayout s p (portBytes s p) := by
  simp only [portBytes, List.append_assoc]
  exact ⟨rfl, fieldAt_of_slice rfl, rfl, fieldAt_of_slice rfl, fieldAt_flag rfl,
    getD_of_slice (f := fun h => colourByte s.portRec[p].colourMap[h]) rfl, fieldAt_of_slice rfl, fieldAt_flag rfl,
    fieldAt_flag rfl, fieldAt_of_slice rfl, fieldAt_of_slice rfl, fieldAt_flag rfl, fieldAt_of_slice rfl,
    fieldAt_of_slice rfl, fieldAt_of_slice rfl, fieldAt_of_slice rfl, fieldAt_flag rfl, fieldAt_flag rfl, fieldAt_flag rfl⟩

theorem classBytes_layout (s : State) (k : Fin 8) : ClassLayout s k (classBytes s k) :=
  ⟨rfl, rfl, fieldAt_of_slice rfl, fieldAt_of_slice rfl, pairsAt_of_slice rfl, fieldAt_of_slice rfl,
    fieldAt_of_slice rfl, fieldAt_of_slice rfl, fieldAt_of_slice rfl, fieldAt_of_slice rfl, fieldAt_of_slice rfl,
    fieldAt_of_slice rfl⟩

theorem meterBytes_layout (s : State) (m : Fin 16) : MeterLayout s.meters[m] (meterBytes s m) :=
  ⟨rfl, fieldAt_of_slice rfl, fieldAt_of_slice rfl, fieldAt_of_slice rfl, fieldAt_of_slice rfl, fieldAt_of_slice rfl,
    fieldAt_of_slice rfl⟩

theorem patternBytes_layout (t : Pattern) : PatternLayout t (patternBytes t) := by
  have flags : bitsNat [t.valid, t.hasPorts, t.hasKind, t.hasAddr, t.hasBeats, t.hasTags, t.hasHints, t.hasPriv] =
      t.valid.toNat + 2 * t.hasPorts.toNat + 4 * t.hasKind.toNat + 8 * t.hasAddr.toNat + 16 * t.hasBeats.toNat +
        32 * t.hasTags.toNat + 64 * t.hasHints.toNat + 128 * t.hasPriv.toNat := by
    simp only [bitsNat]
    omega
  have kind : (t.kind == .write).toNat = if t.kind = .write then 1 else 0 := by cases t.kind <;> rfl
  refine ⟨rfl, flags ▸ fieldAt_of_slice rfl, kind ▸ fieldAt_of_slice rfl, ?_, fieldAt_of_slice rfl, fieldAt_of_slice rfl, ?_⟩
  · rw [fieldAt_one, BitVec.ofNat_toNat, BitVec.setWidth_eq]
    rfl
  · obtain ⟨valid, hasPorts, hasKind, hasAddr, hasBeats, hasTags, hasHints, hasPriv, ports, kind, priv, tags, hints, addr,
      beatsMin, beatsMax⟩ := t
    cases addr with
    | masked a mask => exact ⟨fieldAt_of_slice rfl, fieldAt_of_slice rfl, fieldAt_of_slice rfl⟩
    | range a b => exact ⟨fieldAt_of_slice rfl, fieldAt_of_slice rfl, fieldAt_of_slice rfl⟩

theorem actionBytes_layout (a : Action) : ActionLayout a (actionBytes a) :=
  ⟨rfl, fieldAt_of_slice rfl, fieldAt_of_slice rfl, fieldAt_of_slice rfl, rfl, fieldAt_of_slice rfl, rfl, fieldAt_flag rfl,
    fieldAt_of_slice rfl, fieldAt_of_slice rfl, fieldAt_of_slice rfl⟩

theorem countersBytes_layout (s : State) (g : Fin 24) : CountersLayout s g (countersBytes s g) :=
  ⟨rfl, fieldAt_of_slice rfl, fieldAt_of_slice rfl, fieldAt_of_slice rfl, fieldAt_of_slice rfl, fieldAt_of_slice rfl,
    fieldAt_of_slice rfl⟩

theorem trackerBytes_layout (t : TagState) : TrackerLayout t (trackerBytes t) := by
  cases t with
  | free => exact ⟨rfl, fieldAt_of_slice rfl⟩
  | busy d =>
    exact ⟨rfl, fieldAt_of_slice rfl, fieldAt_of_slice rfl, fieldAt_of_slice rfl, fieldAt_of_slice rfl, rfl,
      fieldAt_of_slice rfl, fieldAt_of_slice rfl, fieldAt_of_slice rfl, rfl, fieldAt_of_slice rfl, fieldAt_flag rfl,
      fieldAt_of_slice rfl, fieldAt_of_slice rfl⟩
  | orphan o =>
    exact ⟨rfl, fieldAt_of_slice rfl, rfl, fieldAt_of_slice rfl, fieldAt_of_slice rfl, rfl, fieldAt_of_slice rfl,
      fieldAt_of_slice rfl, fieldAt_of_slice rfl⟩

theorem captureBytes_layout (c : CaptureRecord) : CaptureLayout c (captureBytes c) := by
  have colour : (captureBytes c).getD 10 0#8 = match c.colour with
      | none => 0x00#8
      | some colour => colourByte colour := by
    obtain ⟨bank, rule, port, tag, kind, address, lenM1, cls, colour, outcome⟩ := c
    cases colour <;> rfl
  exact ⟨rfl, fieldAt_of_slice rfl, fieldAt_of_slice rfl, rfl, fieldAt_of_slice rfl, fieldAt_of_slice rfl,
    fieldAt_of_slice rfl, colour, rfl⟩

theorem bitsNat_testBit (l : List Bool) (i : Nat) : (bitsNat l).testBit i = l.getD i false := by
  induction l generalizing i with
  | nil => simp [bitsNat]
  | cons b l ih =>
    cases i with
    | zero => cases b <;> simp [bitsNat]
    | succ i =>
      have half : (b.toNat + 2 * bitsNat l) / 2 = bitsNat l := by have := b.toNat_lt; omega
      rw [bitsNat, Nat.testBit_succ, half, ih]
      rfl

/-- Bit `b` of byte `j` of a number in bytes is bit `8 * j + b` of the number (R173). -/
theorem getLsbD_byteOfNumber (v j : Nat) {b : Nat} (hb : b < 8) :
    (BitVec.ofNat 8 (v / 256 ^ j)).getLsbD b = v.testBit (8 * j + b) := by
  rw [BitVec.getLsbD_ofNat, decide_eq_true hb, Bool.true_and, show 256 = 2 ^ 8 from rfl, ← Nat.pow_mul,
    Nat.testBit_div_two_pow, Nat.add_comm]

theorem levelFlags_toNat (s : State) : (levelFlags s).toNat = (captureReady s).toNat + 2 * (tagsStuck s).toNat := by
  unfold levelFlags
  cases captureReady s <;> cases tagsStuck s <;> rfl

theorem statusBytes_layout (s : State) : StatusLayout s (statusBytes s) := by
  have half : FieldAt (statusBytes s) 2 3 (bitsNat s.counters.half.toList) := fieldAt_of_slice rfl
  have halfBit (g : Fin 24) :
      ((statusBytes s).getD (2 + g.val / 8) 0#8).getLsbD (g.val % 8) = s.counters.half[g] := by
    rw [half _ (by omega), getLsbD_byteOfNumber _ _ (Nat.mod_lt _ (by decide)), Nat.div_add_mod, bitsNat_testBit]
    simp
  have requests : bitsNat [s.drain.command, s.drain.line] = s.drain.command.toNat + 2 * s.drain.line.toNat := by
    simp only [bitsNat]
    omega
  have causes : bitsNat [s.cause.powerOn, s.cause.line, s.cause.governor] =
      s.cause.powerOn.toNat + 2 * s.cause.line.toNat + 4 * s.cause.governor.toNat := by
    simp only [bitsNat]
    omega
  exact ⟨rfl, rfl, levelFlags_toNat s ▸ fieldAt_of_slice rfl, halfBit, rfl, rfl, fieldAt_of_slice rfl,
    requests ▸ fieldAt_of_slice rfl, causes ▸ fieldAt_of_slice rfl, fieldAt_of_slice rfl, fieldAt_of_slice rfl⟩

/-! ### Runs of bytes read as they were written -/

/-- The `n` bytes from offset `i` on, one by one; a byte beyond the end reads zero. -/
def bytesFrom (d : List Byte) : Nat → Nat → List Byte
  | _, 0 => []
  | i, n + 1 => byteAt d i :: bytesFrom d (i + 1) n

theorem take_drop_eq_bytesFrom {d : List Byte} {i n : Nat} (h : i + n ≤ d.length) :
    (d.drop i).take n = bytesFrom d i n := by
  induction n generalizing i with
  | zero => rfl
  | succ n ih =>
    have hi : i < d.length := by omega
    rw [List.drop_eq_getElem_cons hi, List.take_succ_cons, ih (by omega), bytesFrom]
    simp [byteAt, hi]

theorem take_eq_bytesFrom {d : List Byte} {n : Nat} (h : n ≤ d.length) : d.take n = bytesFrom d 0 n := by
  simpa using take_drop_eq_bytesFrom (d := d) (i := 0) (n := n) (by omega)

/-- A number read from `n` bytes is written as those bytes (R173). -/
theorem leBytes_numAt (d : List Byte) (i n : Nat) : leBytes n (numAt d i n) = bytesFrom d i n := by
  induction n generalizing i with
  | zero => rfl
  | succ n ih =>
    have first : BitVec.ofNat 8 (natAt d i + 256 * numAt d (i + 1) n) = byteAt d i := by
      apply BitVec.eq_of_toNat_eq
      have := natAt_lt d i
      simp only [natAt] at this ⊢
      simp only [BitVec.toNat_ofNat]
      omega
    have others : (natAt d i + 256 * numAt d (i + 1) n) / 256 = numAt d (i + 1) n := by
      have := natAt_lt d i
      omega
    rw [numAt_succ, leBytes, first, others, ih, bytesFrom]

theorem pairsBytes_pairsAt (d : List Byte) (i : Nat) : pairsBytes (pairsAt d i) = bytesFrom d i 12 := by
  simp only [pairsBytes, pairBytes, pairsAt, pairAt, leBytes_numAt]
  rfl

/-! ### Codes read as they were written -/

theorem numByte_natAt (d : List Byte) (i : Nat) : numByte (natAt d i) = byteAt d i := by
  simp [numByte, natAt]

theorem numByte_asFin {n : Nat} [NeZero n] {d : List Byte} {i : Nat} (h : natAt d i < n) :
    numByte (asFin n (natAt d i)).val = byteAt d i := by
  rw [asFin, Fin.val_ofNat, Nat.mod_eq_of_lt h, numByte_natAt]

theorem flagByte_flagAt {d : List Byte} {i : Nat} (h : flagOk d i = true) : flagByte (flagAt d i) = byteAt d i := by
  rw [← numByte_natAt, flagAt]
  have := of_decide_eq_true h
  interval_cases natAt d i <;> rfl

theorem quiesceByte_quiesceOf {n : Nat} (h : n < 4) : quiesceByte (quiesceOf n) = numByte n := by
  interval_cases n <;> rfl

theorem schedByte_schedOf {n : Nat} (h : n < 3) : schedByte (schedOf n) = numByte n := by
  interval_cases n <;> rfl

theorem dispositionByte_dispositionOf {n : Nat} (h : n < 3) : dispositionByte (dispositionOf n) = numByte n := by
  interval_cases n <;> rfl

theorem colourByte_colourOf {n : Nat} (h1 : 1 ≤ n) (h3 : n ≤ 3) : colourByte (colourOf n) = numByte n := by
  interval_cases n <;> rfl

theorem claimCode_claimOf {n : Nat} (h : n < 3) : claimCode (claimOf n) = n := by
  interval_cases n <;> rfl

theorem meterByte_meterOf {n : Nat} (h : meterOk n = true) : meterByte (meterOf n) = numByte n := by
  simp only [meterOk, Bool.or_eq_true, decide_eq_true_eq, beq_iff_eq] at h
  rcases h with hlt | rfl
  · have hne : n ≠ 255 := by omega
    simp only [meterOf, hne, if_false, meterByte, asFin, Fin.val_ofNat, Nat.mod_eq_of_lt hlt]
  · rfl

theorem enableSet_readBack {n : Nat} (h : n < 64) : numByte (BitVec.ofNat 6 n).toNat = numByte n := by
  rw [BitVec.toNat_ofNat, Nat.mod_eq_of_lt h]

/-! ### Entries read as they were written -/

/-- The writable bytes of a GLOBAL entry that passes its check read back (R175). -/
theorem globalBytes_readBack (s : State) {d : List Byte} (hok : globalOk d = true) :
    (globalBytes { s with glob := globalOf d }).take 46 = bytesFrom d 0 46 := by
  simp only [globalOk, Bool.and_eq_true, decide_eq_true_eq, List.all_eq_true, List.mem_finRange, true_imp_iff] at hok
  obtain ⟨⟨⟨⟨⟨⟨-, -⟩, hlower⟩, hupper⟩, hquiesce⟩, hstats⟩, henables⟩ := hok
  have enables (g : Fin 24) : numByte (globalOf d).enables[g].toNat = byteAt d (22 + g.val) := by
    simp only [globalOf, Fin.getElem_fin, Vector.getElem_ofFn]
    rw [enableSet_readBack (henables g), numByte_natAt]
  calc (globalBytes { s with glob := globalOf d }).take 46
      = leBytes 2 (numAt d 0 2) ++ (leBytes 2 (numAt d 2 2) ++ (leBytes 2 (numAt d 4 2) ++ (pairsBytes (pairsAt d 6) ++
          ([numByte (asFin 4 (natAt d 18)).val, numByte (asFin 4 (natAt d 19)).val, quiesceByte (quiesceOf (natAt d 20)),
            flagByte (flagAt d 21)] ++ (List.finRange 24).map fun g => numByte (globalOf d).enables[g].toNat)))) := by
        simp only [globalBytes, List.append_assoc]
        rfl
    _ = bytesFrom d 0 2 ++ (bytesFrom d 2 2 ++ (bytesFrom d 4 2 ++ (bytesFrom d 6 12 ++
          (bytesFrom d 18 4 ++ (List.finRange 24).map fun g => byteAt d (22 + g.val))))) := by
        simp only [leBytes_numAt, pairsBytes_pairsAt, numByte_asFin hlower, numByte_asFin hupper,
          quiesceByte_quiesceOf hquiesce, numByte_natAt, flagByte_flagAt hstats, enables]
        rfl
    _ = bytesFrom d 0 46 := rfl

/-- The writable bytes of a PORT entry that passes its check read back (R176). -/
theorem portBytes_readBack (s : State) (p : Fin 6) {d : List Byte} (hok : portOk d = true) :
    (portBytes { s with portRec := s.portRec.set p (portOf d) } p).take 24 = bytesFrom d 0 24 := by
  simp only [portOk, Bool.and_eq_true, decide_eq_true_eq, List.all_eq_true, List.mem_finRange, true_imp_iff] at hok
  obtain ⟨⟨⟨⟨⟨⟨⟨⟨⟨⟨⟨hclass, hmeter⟩, hgroup⟩, haware⟩, hcolours⟩, -⟩, hglobal⟩, hhold⟩, -⟩, hpace⟩, hpaceMeter⟩, -⟩ := hok
  have colours (h : Fin 4) : colourByte (portOf d).colourMap[h] = byteAt d (4 + h.val) := by
    simp only [portOf, Fin.getElem_fin, Vector.getElem_ofFn]
    rw [colourByte_colourOf (hcolours h).1 (hcolours h).2, numByte_natAt]
  have written : (s.portRec.set p (portOf d))[p] = portOf d := by rw [getElem_set_fin, if_pos rfl]
  calc (portBytes { s with portRec := s.portRec.set p (portOf d) } p).take 24
      = [numByte (asFin 8 (natAt d 0)).val, meterByte (meterOf (natAt d 1)), numByte (asFin 24 (natAt d 2)).val,
          flagByte (flagAt d 3)] ++ (((List.finRange 4).map fun h => colourByte (portOf d).colourMap[h]) ++
          (leBytes 2 (numAt d 8 2) ++ ([flagByte (flagAt d 10), flagByte (flagAt d 11)] ++ (leBytes 2 (numAt d 12 2) ++
          (leBytes 2 (numAt d 14 2) ++ ([flagByte (flagAt d 16), numByte (asFin 16 (natAt d 17)).val] ++
          (leBytes 3 (numAt d 18 3) ++ leBytes 3 (numAt d 21 3)))))))) := by
        simp only [portBytes, written, List.append_assoc]
        rfl
    _ = bytesFrom d 0 4 ++ (((List.finRange 4).map fun h => byteAt d (4 + h.val)) ++
          (bytesFrom d 8 2 ++ (bytesFrom d 10 2 ++ (bytesFrom d 12 2 ++ (bytesFrom d 14 2 ++ (bytesFrom d 16 2 ++
          (bytesFrom d 18 3 ++ bytesFrom d 21 3))))))) := by
        simp only [leBytes_numAt, numByte_asFin hclass, meterByte_meterOf hmeter, numByte_asFin hgroup,
          flagByte_flagAt haware, colours, flagByte_flagAt hglobal, flagByte_flagAt hhold, flagByte_flagAt hpace,
          numByte_asFin hpaceMeter, numByte_natAt]
        rfl
    _ = bytesFrom d 0 24 := rfl

/-- The writable bytes of a CLASS entry that passes its check read back (R177). -/
theorem classBytes_readBack (s : State) (k : Fin 8) {d : List Byte} (hok : classFieldsOk d = true) :
    (classBytes { s with classRec := s.classRec.set k (classOf d) } k).take 20 = bytesFrom d 0 20 := by
  simp only [classFieldsOk, Bool.and_eq_true, decide_eq_true_eq] at hok
  obtain ⟨⟨⟨⟨hmode, -⟩, -⟩, -⟩, ⟨hgreen, hyellow⟩, hred⟩ := hok
  have written : (s.classRec.set k (classOf d))[k] = classOf d := by rw [getElem_set_fin, if_pos rfl]
  calc (classBytes { s with classRec := s.classRec.set k (classOf d) } k).take 20
      = [schedByte (schedOf (natAt d 0)), numByte (natAt d 1)] ++ (leBytes 2 (numAt d 2 2) ++
          (pairsBytes (pairsAt d 4) ++ [numByte (asFin 256 (natAt d 16)).val, numByte (asFin 4 (natAt d 17)).val,
            numByte (asFin 4 (natAt d 18)).val, numByte (asFin 4 (natAt d 19)).val])) := by
        simp only [classBytes, written, List.append_assoc]
        rfl
    _ = bytesFrom d 0 2 ++ (bytesFrom d 2 2 ++ (bytesFrom d 4 12 ++ bytesFrom d 16 4)) := by
        simp only [schedByte_schedOf hmode, leBytes_numAt, pairsBytes_pairsAt, numByte_asFin (natAt_lt d 16),
          numByte_asFin hgreen, numByte_asFin hyellow, numByte_asFin hred, numByte_natAt]
        rfl
    _ = bytesFrom d 0 20 := rfl

/-- A byte is made of its eight bits, bit 0 first. -/
theorem numByte_bits (d : List Byte) (i : Nat) :
    numByte (bitsNat [bitAt d i 0, bitAt d i 1, bitAt d i 2, bitAt d i 3, bitAt d i 4, bitAt d i 5, bitAt d i 6,
      bitAt d i 7]) = byteAt d i := by
  have all : ∀ b : Byte, numByte (bitsNat [b.getLsbD 0, b.getLsbD 1, b.getLsbD 2, b.getLsbD 3, b.getLsbD 4, b.getLsbD 5,
      b.getLsbD 6, b.getLsbD 7]) = b := by decide +kernel
  exact all (byteAt d i)

/-- A byte is made of its low six bits, bit 6 and bit 7: the ports, the kind and the privilege of a pattern (R179). -/
theorem numByte_sixBits (d : List Byte) (i : Nat) :
    numByte (((byteAt d i).setWidth 6).toNat + 64 * (bitAt d i 6).toNat + 128 * (bitAt d i 7).toNat) = byteAt d i := by
  have all : ∀ b : Byte, numByte ((b.setWidth 6).toNat + 64 * (b.getLsbD 6).toNat + 128 * (b.getLsbD 7).toNat) = b := by
    decide +kernel
  exact all (byteAt d i)

/-- A byte below 32 is made of its low four bits and bit 4: the hints and the address mode of a pattern (R179). -/
theorem numByte_fourBits {d : List Byte} {i : Nat} (h : natAt d i < 32) :
    numByte (((byteAt d i).setWidth 4).toNat + 16 * (bitAt d i 4).toNat) = byteAt d i := by
  have all : ∀ b : Byte, b.toNat < 32 → numByte ((b.setWidth 4).toNat + 16 * (b.getLsbD 4).toNat) = b := by
    decide +kernel
  exact all (byteAt d i) h

theorem kind_readBack (b : Bool) : ((if b then Kind.write else Kind.read) == .write) = b := by cases b <;> rfl

theorem addr_readBack (d : List Byte) (i : Nat) : leBytes 5 (BitVec.ofNat 40 (numAt d i 5)).toNat = bytesFrom d i 5 := by
  have fits : numAt d i 5 < 2 ^ 40 := by
    have short := leNat_lt ((d.drop i).take 5)
    have bound : 256 ^ ((d.drop i).take 5).length ≤ 256 ^ 5 :=
      Nat.pow_le_pow_right (by decide) (List.length_take_le _ _)
    exact lt_of_lt_of_le short bound
  rw [BitVec.toNat_ofNat, Nat.mod_eq_of_lt fits, leBytes_numAt]

/-- A mask's ten bits are its first two bytes, and a passing entry has zeros after them (R38, R179). -/
theorem mask_readBack {d : List Byte} {i : Nat} (h : numAt d i 5 < 1024) :
    leBytes 5 (BitVec.ofNat 10 (numAt d i 2)).toNat = bytesFrom d i 5 := by
  have low : numAt d i 2 = numAt d i 5 := by
    simp only [numAt_succ, numAt_zero] at h ⊢
    omega
  rw [low, BitVec.toNat_ofNat, Nat.mod_eq_of_lt h, leBytes_numAt]

/-- A pattern entry that passes its check reads back, in either address mode (R38, R179). -/
theorem patternBytes_readBack {d : List Byte} (hok : patternOk d = true) :
    patternBytes (patternOf d) = bytesFrom d 0 16 := by
  simp only [patternOk, Bool.and_eq_true, decide_eq_true_eq] at hok
  obtain ⟨⟨⟨⟨hhints, -⟩, -⟩, -⟩, haddr⟩ := hok
  have second : (if bitAt d 3 4 then leBytes 5 (BitVec.ofNat 40 (numAt d 11 5)).toNat
      else leBytes 5 (BitVec.ofNat 10 (numAt d 11 2)).toNat) = bytesFrom d 11 5 := by
    cases hmode : bitAt d 3 4 with
    | false =>
      rw [hmode] at haddr
      exact mask_readBack (of_decide_eq_true haddr)
    | true => exact addr_readBack d 11
  calc patternBytes (patternOf d)
      = [numByte (bitsNat [bitAt d 0 0, bitAt d 0 1, bitAt d 0 2, bitAt d 0 3, bitAt d 0 4, bitAt d 0 5, bitAt d 0 6,
            bitAt d 0 7]),
          numByte (((byteAt d 1).setWidth 6).toNat +
            64 * ((if bitAt d 1 6 then Kind.write else Kind.read) == .write).toNat + 128 * (bitAt d 1 7).toNat),
          byteAt d 2, numByte (((byteAt d 3).setWidth 4).toNat + 16 * (bitAt d 3 4).toNat), numByte (natAt d 4),
          numByte (natAt d 5)] ++ (leBytes 5 (BitVec.ofNat 40 (numAt d 6 5)).toNat ++
          if bitAt d 3 4 then leBytes 5 (BitVec.ofNat 40 (numAt d 11 5)).toNat
          else leBytes 5 (BitVec.ofNat 10 (numAt d 11 2)).toNat) := by
        cases hmode : bitAt d 3 4 <;> simp only [patternBytes, patternOf, hmode, List.append_assoc] <;> rfl
    _ = bytesFrom d 0 6 ++ (bytesFrom d 6 5 ++ bytesFrom d 11 5) := by
        rw [second, addr_readBack]
        simp only [kind_readBack, numByte_bits, numByte_sixBits, numByte_fourBits hhints, numByte_natAt]
        rfl
    _ = bytesFrom d 0 16 := rfl

/-- Four claim codes in a byte, two bits each (R180). -/
theorem claimCodes_readBack (d : List Byte) (i : Nat) :
    claimCodeAt d i 0 + 4 * claimCodeAt d i 2 + 16 * claimCodeAt d i 4 + 64 * claimCodeAt d i 6 = natAt d i := by
  have := natAt_lt d i
  simp only [claimCodeAt]
  omega

/-- An action entry that passes its check reads back (R39, R180). -/
theorem actionBytes_readBack {d : List Byte} (hok : actionOk d = true) : actionBytes (actionOf d) = bytesFrom d 0 12 := by
  simp only [actionOk, Bool.and_eq_true, decide_eq_true_eq] at hok
  obtain ⟨⟨⟨⟨⟨⟨hcls, hmeter⟩, hgroup⟩, hdisp⟩, ⟨⟨hnotify, hdeadline⟩, hhint⟩, hrest⟩,
    ⟨⟨⟨⟨clsValue, meterValue⟩, groupValue⟩, dispValue⟩, notifyValue⟩, hintValue⟩, hzero⟩ := hok
  have claims0 := claimCodes_readBack d 0
  have claims1 := claimCodes_readBack d 1
  rw [hrest, Nat.mul_zero, Nat.add_zero] at claims1
  have zeros : bytesFrom d 9 3 = [0x00#8, 0x00#8, 0x00#8] := by
    rw [← leBytes_numAt, hzero]
    rfl
  calc actionBytes (actionOf d)
      = [numByte (claimCode (claimOf (claimCodeAt d 0 0)) + 4 * claimCode (claimOf (claimCodeAt d 0 2)) +
            16 * claimCode (claimOf (claimCodeAt d 0 4)) + 64 * claimCode (claimOf (claimCodeAt d 0 6))),
          numByte (claimCode (claimOf (claimCodeAt d 1 0)) + 4 * claimCode (claimOf (claimCodeAt d 1 2)) +
            16 * claimCode (claimOf (claimCodeAt d 1 4))),
          numByte (asFin 8 (natAt d 2)).val, meterByte (meterOf (natAt d 3)), numByte (asFin 24 (natAt d 4)).val,
          dispositionByte (dispositionOf (natAt d 5)), flagByte (flagAt d 6), numByte (asFin 256 (natAt d 7)).val,
          numByte (asFin 4 (natAt d 8)).val] ++ [0x00#8, 0x00#8, 0x00#8] := rfl
    _ = bytesFrom d 0 9 ++ bytesFrom d 9 3 := by
        simp only [claimCode_claimOf hcls, claimCode_claimOf hmeter, claimCode_claimOf hgroup, claimCode_claimOf hdisp,
          claimCode_claimOf hnotify, claimCode_claimOf hdeadline, claimCode_claimOf hhint, claims0, claims1, zeros,
          numByte_asFin clsValue, meterByte_meterOf meterValue, numByte_asFin groupValue,
          dispositionByte_dispositionOf dispValue, flagByte_flagAt (decide_eq_true notifyValue : flagOk d 6 = true),
          numByte_asFin (natAt_lt d 7), numByte_asFin hintValue, numByte_natAt]
        rfl
    _ = bytesFrom d 0 12 := rfl

/-! ### Every entry and record -/

theorem codesAsGiven : CodesAsGiven :=
  ⟨⟨rfl, rfl⟩, ⟨rfl, rfl, rfl⟩, ⟨rfl, fun _ => rfl⟩, ⟨rfl, rfl, rfl⟩, ⟨rfl, rfl, rfl, rfl⟩, ⟨rfl, rfl⟩, ⟨rfl, rfl, rfl⟩,
    ⟨rfl, rfl⟩, ⟨rfl, rfl, rfl⟩, ⟨rfl, rfl, rfl⟩, ⟨rfl, rfl, rfl, rfl, rfl, rfl⟩, ⟨rfl, rfl, rfl, rfl, rfl, rfl⟩,
    ⟨rfl, rfl, rfl, rfl, rfl, rfl, rfl, rfl⟩⟩

/-- A rule's two entries are those its index byte names, of its bank (R172). -/
theorem entryBytes_rule (s : State) (b : Fin 2) (i : Fin 48) :
    entryBytes s .rulePattern (BitVec.ofNat 8 (128 * b.val + i.val)) = some (patternBytes s.rules[b][i].pattern) ∧
      entryBytes s .ruleAction (BitVec.ofNat 8 (128 * b.val + i.val)) = some (actionBytes s.rules[b][i].action) := by
  simp only [entryBytes, ruleIndex_ofNat, ruleBank_ofNat, Option.map_some, and_self]

/-- The entry that an index byte names, in the tables whose whole byte is the index (R172). -/
theorem entryBytes_indexed (s : State) :
    (∀ p : Fin 6, entryBytes s .port (BitVec.ofNat 8 p.val) = some (portBytes s p)) ∧
    (∀ k : Fin 8, entryBytes s .cls (BitVec.ofNat 8 k.val) = some (classBytes s k)) ∧
    (∀ m : Fin 16, entryBytes s .meter (BitVec.ofNat 8 m.val) = some (meterBytes s m)) ∧
    (∀ g : Fin 24, entryBytes s .counters (BitVec.ofNat 8 g.val) = some (countersBytes s g)) ∧
    ∀ t : Fin 32, entryBytes s .tracker (BitVec.ofNat 8 t.val) = some (trackerBytes s.tags[t]) := by
  have named {n : Nat} (hn : n ≤ 256) (f : Fin n → List Byte) (i : Fin n) :
      (indexBelow n (BitVec.ofNat 8 i.val)).map f = some (f i) := by rw [indexBelow_ofNat hn, Option.map_some]
  exact ⟨named (by decide) _, named (by decide) _, named (by decide) _, named (by decide) _,
    named (by decide) fun t => trackerBytes s.tags[t]⟩

/-- Settles O53: the layouts, and each entry read back as the bytes that were written. -/
theorem entriesReadBack : Obligations.EntriesReadBack := by
  refine ⟨codesAsGiven, fun s => ?_, captureBytes_layout, fun s d hlen hok => ?_, fun s p d hlen hok => ?_,
    fun s k d hlen hok => ?_, fun d hlen hok => ?_, fun d hlen hok => ?_, rfl, rfl⟩
  · obtain ⟨port, cls, meter, counters, tracker⟩ := entryBytes_indexed s
    have rule (b : Fin 2) (i : Fin 48) := entryBytes_rule s b i
    exact ⟨⟨_, rfl, globalBytes_layout s⟩, fun p => ⟨_, port p, portBytes_layout s p⟩,
      fun k => ⟨_, cls k, classBytes_layout s k⟩, fun m => ⟨_, meter m, meterBytes_layout s m⟩,
      fun b i => ⟨⟨_, (rule b i).1, patternBytes_layout _⟩, ⟨_, (rule b i).2, actionBytes_layout _⟩⟩,
      fun g => ⟨_, counters g, countersBytes_layout s g⟩, fun t => ⟨_, tracker t, trackerBytes_layout _⟩,
      ⟨_, rfl, statusBytes_layout s⟩, ⟨_, rfl, rfl, fieldAt_of_slice rfl⟩⟩
  · rw [globalBytes_readBack s hok, take_eq_bytesFrom (by omega)]
  · rw [portBytes_readBack s p hok, take_eq_bytesFrom (by omega)]
  · rw [classBytes_readBack s k hok, take_eq_bytesFrom (by omega)]
  · rw [patternBytes_readBack hok, ← take_eq_bytesFrom hlen.ge, List.take_of_length_le hlen.le]
  · rw [actionBytes_readBack hok, ← take_eq_bytesFrom hlen.ge, List.take_of_length_le hlen.le]

end Sys2Proof.Machine
end

section
/-! PROOFS. Ticks, meters and colour: what every step keeps of the settings, the tokens and the bounds (O58), the colour and
the charge, the tick and the REFCLK period, and the frames that write GLOBAL and METER. -/

namespace Sys2Proof.Machine

/-! ### Properties inside the part -/

/-- The property speaks of no input line, event, queued command, output channel or Management Port. -/
def IgnoresInterface (P : State → Prop) : Prop :=
  ∀ (s : State) (pins : Pins) (events : EventUnit) (mgmt : Mgmt) (out : Outputs) (pending : List Instr), P s →
    P { s with pins := pins, events := events, mgmt := mgmt, out := out, pending := pending }

/-- Every next state the outcome gives has the property. -/
def NextHas (P : State → Prop) (o : Host.Outcome State Fault Refusal) : Prop := ∀ t, o = .next t → P t

theorem nextHas_next {P : State → Prop} {t : State} (h : P t) : NextHas P (.next t) := by
  rintro _ ⟨⟩
  exact h

section Interface
variable {P : State → Prop} (blind : IgnoresInterface P)
include blind

theorem IgnoresInterface.quiet {s : State} (h : P s) : P s.quiet := blind s _ _ _ _ _ h

theorem IgnoresInterface.withSdo {s : State} (bits : List Bool) (h : P s) : P (withSdo s bits) := blind s _ _ _ _ _ h

theorem IgnoresInterface.endFrame {s : State} (r : ResultCode) (h : P s) : P (endFrame s r) := blind s _ _ _ _ _ h

theorem IgnoresInterface.discardFrame {s : State} (h : P s) : P (discardFrame s) := blind s _ _ _ _ _ h

theorem IgnoresInterface.leaveOpen {s : State} (o : OpenFrame) (h : P s) : P (leaveOpen s o) := blind s _ _ _ _ _ h

theorem IgnoresInterface.withPending {s : State} (rest : List Instr) (h : P s) : P { s with pending := rest } :=
  blind s _ _ _ _ _ h

/-- An event keeps a property inside the part, in reset too, if its effect does. -/
theorem whileRunning_keeps {s : State} {f : State → State} (hf : ∀ {u}, P u → P (f u)) (h : P s) :
    NextHas P (whileRunning s f) := by
  refine nextHas_next ?_
  split
  · exact hf (blind.quiet h)
  · exact blind.quiet h

/-- A frame keeps a property inside the part, however it ends, if its act does. -/
theorem runFrame_keeps {s : State} (f : FrameBits) (code want : Nat) (snap : Option Snapshot)
    {act : State → State × ResultCode} (hact : ∀ {u}, P u → P (act u).1) (h : P s) :
    P (runFrame s f code want snap act) := by
  cases hend : f.ended with
  | false =>
    rw [runFrame_goesOn s code want snap act hend]
    exact blind.leaveOpen _ h
  | true =>
    rw [runFrame_ended s code want snap act hend]
    by_cases hlen : f.edges code = 8 * want
    · rw [closeFrame_rightLength _ _ _ _ _ _ hlen]
      exact blind.endFrame _ (hact (blind.withSdo _ (blind.quiet h)))
    · rw [closeFrame_wrongLength _ _ _ _ _ _ hlen]
      exact blind.discardFrame (blind.withSdo _ (blind.quiet h))

theorem commandFrame_keeps {s : State} (c : Command) (f : FrameBits) {act : State → State × ResultCode}
    (hact : ∀ {u}, P u → P (act u).1) (h : P s) : NextHas P (commandFrame s c f act) := by
  refine nextHas_next ?_
  split
  · exact runFrame_keeps blind f 1 c.frameLength none hact h
  · exact blind.quiet h

theorem tableFrame_keeps {s : State} (t : Table) (f : FrameBits) {act : Byte → List Byte → State → State × ResultCode}
    (hact : ∀ b d {u}, P u → P (act b d u).1) (h : P s) : NextHas P (tableFrame s t f act) := by
  refine nextHas_next ?_
  split
  · exact runFrame_keeps blind f 2 t.frameLength none (hact _ _) h
  · exact blind.quiet h

theorem readFrame_keeps {s : State} (m : FrameMoment) (f : FrameBits) (code want : Nat) (snap : Snapshot)
    {act : Snapshot → State → State × ResultCode} (hact : ∀ o {u}, P u → P (act o u).1) (h : P s) :
    NextHas P (readFrame s m f code want snap act) := by
  refine nextHas_next ?_
  cases m with
  | opening =>
    simp only
    split
    · exact runFrame_keeps blind f code want _ (hact _) h
    · exact blind.quiet h
  | resuming =>
    simp only
    split
    · split
      · exact runFrame_keeps blind f code want _ (hact _) h
      · exact blind.quiet h
    · exact blind.quiet h

theorem badFrameEvent_keeps {s : State} (f : FrameBits) (h : P s) : P (badFrameEvent s f) := by
  unfold badFrameEvent
  split
  · split
    · exact blind.discardFrame (blind.withSdo _ (blind.quiet h))
    · exact blind.leaveOpen _ h
  · exact blind.quiet h

end Interface

/-! ### Settings, tokens and bounds together -/

/-- What O58 says of every moment. -/
structure WithinBounds (s : State) : Prop where
  settings : SettingsLegal s
  meters   : MetersWithin s
  lottery  : LotteryNonzero s
  deficits : DeficitsLegal s
  captures : CapturesBounded s
  ticks    : TickCounterBelow s

/-- The fields that `WithinBounds` speaks of. -/
def boundedPart (s : State) :
    (GlobalRecord × Vector PortRecord 6 × Vector ClassRecord 8) × (Vector Meter 16 × Nat) × BitVec 16 ×
      (Vector Nat 8 × Vector (List Descriptor) 8) × List CaptureRecord :=
  ((s.glob, s.portRec, s.classRec), (s.meters, s.tickCounter), s.lottery, (s.sched.deficit, s.queues), s.captures)

theorem WithinBounds.congr {s t : State} (h : WithinBounds s) (he : boundedPart t = boundedPart s) : WithinBounds t := by
  simp only [boundedPart, Prod.mk.injEq] at he
  obtain ⟨⟨glob, portRec, classRec⟩, ⟨meters, ticks⟩, lottery, ⟨deficit, queues⟩, captures⟩ := he
  constructor
  · rw [SettingsLegal, glob, portRec, classRec]
    exact h.settings
  · rw [MetersWithin, meters]
    exact h.meters
  · rw [LotteryNonzero, lottery]
    exact h.lottery
  · rw [DeficitsLegal, classRec, deficit, queues]
    exact h.deficits
  · rw [CapturesBounded, captures]
    exact h.captures
  · rw [TickCounterBelow, ticks, glob]
    exact h.ticks

theorem withinBounds_ignoresInterface : IgnoresInterface WithinBounds := fun _ _ _ _ _ _ h => h.congr rfl

theorem withinBounds_reset : WithinBounds State.reset where
  settings := settingsLegal_reset
  meters := metersWithin_reset
  lottery := by unfold LotteryNonzero State.reset; decide
  deficits := deficitsLegal_reset
  captures := Nat.zero_le _
  ticks := by unfold TickCounterBelow; decide

/-- The tick counter may always start again: a tick period is 16 REFCLK periods or more (R44). -/
theorem WithinBounds.restartTicks {s : State} (h : WithinBounds s) : WithinBounds { s with tickCounter := 0 } where
  settings := h.settings
  meters := h.meters
  lottery := h.lottery
  deficits := h.deficits
  captures := h.captures
  ticks := by
    obtain ⟨⟨hperiod, -⟩, -⟩ := h.settings
    exact lt_of_lt_of_le (by decide : 0 < 16) hperiod

theorem WithinBounds.setMeters {s : State} {ms : Vector Meter 16} (h : WithinBounds s) (hm : ∀ m : Fin 16, ms[m].within) :
    WithinBounds { s with meters := ms } := { h with meters := hm }

theorem WithinBounds.setLottery {s : State} {v : BitVec 16} (h : WithinBounds s) (hv : v ≠ 0#16) :
    WithinBounds { s with lottery := v } := { h with lottery := hv }

theorem WithinBounds.setCaptures {s : State} {l : List CaptureRecord} (h : WithinBounds s) (hl : l.length ≤ 16) :
    WithinBounds { s with captures := l } := { h with captures := hl }

/-! ### Meters -/

/-- Tokens that have not grown are within the same buckets (R46). -/
theorem Meter.within_charge {m : Meter} (h : m.within) (c : Colour) (n : Nat) : (m.charge c n).within := by
  obtain ⟨hcir, hcbs, hebs, hc, he⟩ := h
  cases c with
  | green => exact ⟨hcir, hcbs, hebs, (Nat.sub_le _ _).trans hc, he⟩
  | yellow => exact ⟨hcir, hcbs, hebs, hc, (Nat.sub_le _ _).trans he⟩
  | red => exact ⟨hcir, hcbs, hebs, hc, he⟩

theorem Meter.refill_fits {m : Meter} (h : m.c + m.cir ≤ m.cbs) : m.refill = { m with c := m.c + m.cir } := by
  simp only [Meter.refill, h, if_true]

theorem Meter.refill_spills {m : Meter} (h : m.cbs < m.c + m.cir) :
    m.refill = { m with c := m.cbs, e := min m.ebs (m.e + (m.c + m.cir - m.cbs)) } := by
  simp only [Meter.refill, not_le.2 h, if_false]

theorem Meter.within_refill {m : Meter} (h : m.within) : m.refill.within := by
  obtain ⟨hcir, hcbs, hebs, -, he⟩ := h
  rcases le_or_gt (m.c + m.cir) m.cbs with hfits | hspills
  · rw [Meter.refill_fits hfits]
    exact ⟨hcir, hcbs, hebs, hfits, he⟩
  · rw [Meter.refill_spills hspills]
    exact ⟨hcir, hcbs, hebs, le_rfl, min_le_left _ _⟩

theorem chargeMeters_getElem_other (ms : Vector Meter 16) {m j : Fin 16} (h : j ≠ m) (c : Colour) (n : Nat) :
    (chargeMeters ms (some m) c n)[j] = ms[j] := by
  simp only [chargeMeters, getElem_set_fin, if_neg h.symm]

theorem chargeMeters_getElem_same (ms : Vector Meter 16) (m : Fin 16) (c : Colour) (n : Nat) :
    (chargeMeters ms (some m) c n)[m] = ms[m].charge c n := by
  simp only [chargeMeters, getElem_set_fin, if_true]

theorem chargeMeters_within {ms : Vector Meter 16} (h : ∀ m : Fin 16, ms[m].within) (meter : Option (Fin 16))
    (c : Colour) (n : Nat) (j : Fin 16) : (chargeMeters ms meter c n)[j].within := by
  cases meter with
  | none => exact h j
  | some m =>
    by_cases hj : j = m
    · subst hj
      rw [chargeMeters_getElem_same]
      exact Meter.within_charge (h j) c n
    · rw [chargeMeters_getElem_other ms hj]
      exact h j

/-! ### Legal records -/

theorem numAt_lt (d : List Byte) (i n : Nat) : numAt d i n < 256 ^ n := by
  induction n generalizing i with
  | zero => simp [numAt_zero]
  | succ n ih =>
    have first := natAt_lt d i
    have others := ih (i + 1)
    rw [numAt_succ, Nat.pow_succ]
    omega

theorem Pair.legal_iff (p : Pair) : p.legal = true ↔ p.min ≤ p.max ∧ p.max ≤ 1024 := by
  simp only [Pair.legal, Bool.and_eq_true, decide_eq_true_eq, and_comm]

theorem pairsLegal_of_legalPairs {t : PerColour Pair} (h : legalPairs t = true) : PairsLegal t := by
  simp only [legalPairs, Bool.and_eq_true, Pair.legal_iff] at h
  obtain ⟨⟨hgreen, hyellow⟩, hred⟩ := h
  intro c
  cases c with
  | green => exact hgreen
  | yellow => exact hyellow
  | red => exact hred

/-- A GLOBAL entry that passes its check holds a legal record (R44, R68, R87, R175). -/
theorem globalOf_legal {d : List Byte} (h : globalOk d = true) : GlobalLegal (globalOf d) := by
  simp only [globalOk, Bool.and_eq_true, decide_eq_true_eq] at h
  obtain ⟨⟨⟨⟨⟨⟨⟨hperiod, ⟨⟨-, hon⟩, -⟩, horder⟩, hpairs⟩, -⟩, -⟩, -⟩, -⟩, -⟩ := h
  exact ⟨hperiod, Nat.le_of_lt_succ (numAt_lt d 0 2), horder, hon, pairsLegal_of_legalPairs hpairs⟩

/-- A PORT entry that passes its check holds a legal record (R69, R87, R176). -/
theorem portOf_legal {d : List Byte} (h : portOk d = true) : PortLegal (portOf d) := by
  simp only [portOk, Bool.and_eq_true, decide_eq_true_eq] at h
  obtain ⟨⟨⟨⟨⟨⟨⟨-, ⟨hlow, hhigh⟩⟩, -⟩, -⟩, ⟨⟨-, hon⟩, -⟩, horder⟩, -⟩, -⟩, ⟨⟨-, -⟩, hoff⟩, hpace⟩ := h
  exact ⟨hlow, hhigh, horder, hon, hpace, hoff⟩

/-- A CLASS entry whose fields pass holds a legal record (R67, R68, R107, R177). -/
theorem classOf_legal {d : List Byte} (h : classFieldsOk d = true) : ClassLegal (classOf d) := by
  simp only [classFieldsOk, Bool.and_eq_true, decide_eq_true_eq] at h
  obtain ⟨⟨⟨⟨-, ⟨hlow, hhigh⟩⟩, hres⟩, hpairs⟩, -⟩ := h
  exact ⟨hlow, hhigh, hres, pairsLegal_of_legalPairs hpairs⟩

/-- The reservation check adds up the reservations as the write would leave them (R67). -/
theorem reservationOk_iff (recs : Vector ClassRecord 8) (k : Fin 8) (r : ClassRecord) :
    reservationOk recs k r.res = true ↔ reservationSum (recs.set k r) ≤ Config.reservationCap := by
  have same (j : Fin 8) : (if j = k then r.res else recs[j].res) = (recs.set k r)[j].res := by
    rw [getElem_set_fin]
    split
    · rw [if_pos ‹j = k›.symm]
    · rw [if_neg (Ne.symm ‹j ≠ k›)]
  simp only [reservationOk, reservationSum, decide_eq_true_eq, same]

/-! ### The lottery register -/

theorem lotteryShift_getLsbD_zero (v : BitVec 16) :
    (lotteryShift v).getLsbD 0 = ((v.getLsbD 15 ^^ v.getLsbD 13) ^^ (v.getLsbD 12 ^^ v.getLsbD 10)) := by
  rw [lotteryShift, BitVec.getLsbD_append]
  simp

theorem lotteryShift_getLsbD_succ (v : BitVec 16) {i : Nat} (h : i < 15) :
    (lotteryShift v).getLsbD (i + 1) = v.getLsbD i := by
  rw [lotteryShift, BitVec.getLsbD_append]
  simp [h]

/-- A shift to 0 would have had 0 in the low 15 bits, and then bit 15 alone for its feedback (R79). -/
theorem lotteryShift_ne_zero {v : BitVec 16} (h : v ≠ 0#16) : lotteryShift v ≠ 0#16 := by
  refine fun hzero => h (BitVec.eq_of_getLsbD_eq fun i hi => ?_)
  have low (j : Nat) (hj : j < 15) : v.getLsbD j = false := by
    rw [← lotteryShift_getLsbD_succ v hj, hzero, BitVec.getLsbD_zero]
  have feedback := lotteryShift_getLsbD_zero v
  rw [hzero, low 13 (by decide), low 12 (by decide), low 10 (by decide)] at feedback
  rw [BitVec.getLsbD_zero]
  rcases Nat.lt_or_ge i 15 with hlow | htop
  · exact low i hlow
  · obtain rfl : i = 15 := by omega
    simpa using feedback.symm

theorem thresholdStep_lottery (s : State) (k : Fin 8) (c : Colour) :
    (thresholdStep s k c).2 = s.lottery ∨ (thresholdStep s k c).2 = lotteryShift s.lottery := by
  simp only [thresholdStep]
  split
  · exact .inl rfl
  · split
    · split <;> exact .inr rfl
    · exact .inl rfl

/-- A decision shifts the lottery register once or leaves it (R79). -/
theorem enforceDecision_lottery (s : State) (p : Fin 6) (n : Nat) (k : Fin 8) (c : Colour) (critical : Bool) :
    (enforceDecision s p n k c critical).2 = s.lottery ∨
      (enforceDecision s p n k c critical).2 = lotteryShift s.lottery := by
  unfold enforceDecision
  split
  · exact .inl rfl
  · split
    · split <;> exact .inl rfl
    · split
      · exact .inl rfl
      · split
        · exact .inl rfl
        · split
          · exact .inl rfl
          · exact thresholdStep_lottery s k c

/-! ### Deficits -/

/-- What `DeficitsLegal` says of one class with this scheduling mode, queue and deficit (R111, R112). -/
def DeficitLegal (mode : SchedMode) (queue : List Descriptor) (deficit : Nat) : Prop :=
  deficit ≤ 79 ∧ (queue = [] → deficit = 0) ∧ (mode ≠ .weighted → deficit = 0)

theorem deficitsLegal_iff (s : State) :
    DeficitsLegal s ↔ ∀ k : Fin 8, DeficitLegal s.classRec[k].mode s.queues[k] s.sched.deficit[k] := Iff.rfl

theorem deficitLegal_zero (mode : SchedMode) (queue : List Descriptor) : DeficitLegal mode queue 0 :=
  ⟨Nat.zero_le _, fun _ => rfl, fun _ => rfl⟩

/-- A queue that holds something asks less of its deficit than an empty one. -/
theorem DeficitLegal.of_queue {mode : SchedMode} {q q' : List Descriptor} {x : Nat} (h : DeficitLegal mode q x)
    (hq : q' = [] → q = []) : DeficitLegal mode q' x := ⟨h.1, fun he => h.2.1 (hq he), h.2.2⟩

theorem Descriptor.beats_le (d : Descriptor) : d.beats ≤ 16 := d.lenM1.isLt

/-- The visits of a weighted round keep every deficit legal: a class that is passed has work, is WEIGHTED, and held less than
its head's at most 16 beats before it gained its weight of at most 64 (R110, R111). -/
theorem RoundFrom.deficits_legal {s : State} {ptr : Fin 8} {deficit : Vector Nat 8} {r : Round}
    (h : RoundFrom s ptr deficit r) (hrec : ∀ k : Fin 8, ClassLegal s.classRec[k])
    (hd : ∀ k : Fin 8, DeficitLegal s.classRec[k].mode s.queues[k] deficit[k]) (k : Fin 8) :
    DeficitLegal s.classRec[k].mode s.queues[k] r.deficit[k] := by
  induction h with
  | chosen => exact hd k
  | passed ptr j deficit d rest r first hq hshort _ ih =>
    obtain ⟨⟨weighted, work⟩, -⟩ := first
    refine ih fun i => ?_
    rw [getElem_set_fin]
    split
    · subst ‹j = i›
      obtain ⟨-, hweight, -⟩ := hrec j
      have hbeats := d.beats_le
      exact ⟨by omega, fun he => absurd he work, fun hne => absurd weighted hne⟩
    · exact hd i

/-- The scheduler chooses a class outside the weighted round and stays as it is, or it ends a weighted round (R109, R111). -/
theorem chooseClass_cases {s : State} {k : Fin 8} {sc : Sched} (h : chooseClass s = some (k, sc)) :
    (s.classRec[k].mode ≠ .weighted ∧ sc = s.sched) ∨
      ∃ r, weightedRound s = some r ∧ k = r.cls ∧ sc = afterWeighted s r := by
  unfold chooseClass at h
  split at h
  · rename_i j hj
    cases h
    have mode := ((hasWork_iff s _ k).1 (List.find?_some hj)).1
    exact .inl ⟨by rw [mode]; decide, rfl⟩
  · split at h
    · obtain ⟨r, hr, he⟩ := Option.map_eq_some_iff.1 h
      cases he
      exact .inr ⟨r, hr, rfl, rfl⟩
    · obtain ⟨j, hj, he⟩ := Option.map_eq_some_iff.1 h
      cases he
      have mode := ((hasWork_iff s _ k).1 (List.find?_some hj)).1
      exact .inl ⟨by rw [mode]; decide, rfl⟩

/-- An issue hands over the head of the class the scheduler chooses, and leaves the scheduler as the choice does, or it changes
nothing (R108, R109, R111). -/
theorem issueEvent_choice (s : State) :
    issueEvent s = s ∨ ∃ k sc τ d rest, chooseClass s = some (k, sc) ∧ s.queues[k] = d :: rest ∧
      issueEvent s = issueHead s k sc τ d rest := by
  unfold issueEvent issueReady
  split
  · split
    · rename_i τ k sc _ hk
      split
      · rename_i d rest hd
        exact .inr ⟨k, sc, τ, d, rest, hk, hd, rfl⟩
      · exact .inl rfl
    · exact .inl rfl
  · exact .inl rfl

/-- After the head of a class has gone every deficit is legal for the queues as they are then (R111, R112). -/
theorem chooseClass_deficits {s : State} {k : Fin 8} {sc : Sched} {d : Descriptor} {rest : List Descriptor}
    (hrec : ∀ k : Fin 8, ClassLegal s.classRec[k]) (h : DeficitsLegal s) (hk : chooseClass s = some (k, sc))
    (hd : s.queues[k] = d :: rest) (j : Fin 8) :
    DeficitLegal s.classRec[j].mode (s.queues.set k rest)[j] sc.deficit[j] := by
  rcases chooseClass_cases hk with ⟨mode, rfl⟩ | ⟨r, hr, rfl, rfl⟩
  · obtain ⟨-, -, none⟩ := h k
    rw [getElem_set_fin]
    split
    · subst ‹k = j›
      rw [none mode]
      exact deficitLegal_zero _ _
    · exact h j
  · have round := (visits_roundFrom s _ _ _ r hr).deficits_legal hrec ((deficitsLegal_iff s).1 h)
    unfold afterWeighted
    split
    · simp only [getElem_set_fin]
      split
      · exact deficitLegal_zero _ _
      · exact round j
    · rename_i htail
      rw [hd, List.tail_cons, List.isEmpty_iff] at htail
      simp only [getElem_set_fin]
      split
      · subst ‹r.cls = j›
        obtain ⟨hmax, -, unweighted⟩ := round r.cls
        exact ⟨by omega, fun he => absurd he htail, fun hne => by rw [unweighted hne, Nat.zero_sub]⟩
      · exact round j

/-- Expiries that empty a queue set its deficit to 0, and the others leave it (R112, R116). -/
theorem dropExpired_deficits {s : State} (h : DeficitsLegal s) : DeficitsLegal (dropExpired s) := by
  intro k
  obtain ⟨hmax, hempty, hmode⟩ := h k
  have left : (dropExpired s).queues[k] = s.queues[k].filter fun d => !d.ranOut := by simp
  have deficit : (dropExpired s).sched.deficit[k] = deficitAfterExpiry s k := by simp
  have record : (dropExpired s).classRec = s.classRec := rfl
  rw [left, deficit, record, deficitAfterExpiry]
  split
  · exact deficitLegal_zero _ _
  · rename_i hkept
    refine ⟨hmax, fun he => hempty ?_, hmode⟩
    have all : s.queues[k].all Descriptor.ranOut = true := by simpa [List.all_eq_true] using he
    rw [all, Bool.and_true, Bool.not_eq_true', List.isEmpty_eq_false_iff] at hkept
    exact not_not.1 hkept

/-! ### What the events keep -/

@[simp] theorem boundedPart_raiseIf (s : State) (b : Bool) (e : Sticky) : boundedPart (s.raiseIf b e) = boundedPart s := rfl
@[simp] theorem boundedPart_noteHold (s t : State) : boundedPart (noteHold s t) = boundedPart t := rfl
@[simp] theorem boundedPart_count (s : State) (g : Fin 24) (c : Counter) (n : Nat) :
    boundedPart (count s g c n) = boundedPart s := rfl
@[simp] theorem boundedPart_respond (s : State) (p : Fin 6) (r : Response) :
    boundedPart (respond s p r) = boundedPart s := rfl
@[simp] theorem boundedPart_respondAll (s : State) (ds : List Descriptor) (c : RespCode) :
    boundedPart (respondAll s ds c) = boundedPart s := rfl
@[simp] theorem boundedPart_evalLatches (s : State) (g : Bool) (pp pc : Fin 6 → Bool) :
    boundedPart (evalLatches s g pp pc) = boundedPart s := rfl
@[simp] theorem boundedPart_freeDescriptors (s : State) (ds : List Descriptor) :
    boundedPart (freeDescriptors s ds) = boundedPart s := rfl
@[simp] theorem boundedPart_handOn (s : State) (ds : List Descriptor) : boundedPart (handOn s ds) = boundedPart s := rfl

theorem issueEvent_within {s : State} (h : WithinBounds s) : WithinBounds (issueEvent s) := by
  rcases issueEvent_choice s with he | ⟨k, sc, τ, d, rest, hk, hd, he⟩
  · rwa [he]
  · obtain ⟨-, -, hrec, -⟩ := h.settings
    rw [he]
    exact { h with deficits := chooseClass_deficits hrec h.deficits hk hd }

@[simp] theorem boundedPart_countEach (s : State) (gs : List (Fin 24)) (c : Counter) :
    boundedPart (countEach s gs c) = boundedPart s := by
  induction gs generalizing s with
  | nil => rfl
  | cons g gs ih => exact (ih (count s g c 1)).trans rfl

/-- Of what has bounds, expiries change the queues and the deficits alone (R116, R131). -/
theorem boundedPart_expireAll (s : State) : boundedPart (expireAll s) = boundedPart (dropExpired s) := by
  simp only [expireAll, boundedPart_handOn, boundedPart_freeDescriptors, boundedPart_raiseIf, boundedPart_countEach,
    boundedPart_respondAll]

theorem expireAll_within {s : State} (h : WithinBounds s) : WithinBounds (expireAll s) := by
  have dropped : WithinBounds (dropExpired s) := { h with deficits := dropExpired_deficits h.deficits }
  exact dropped.congr (boundedPart_expireAll s)

theorem countDownAll_within {s : State} (h : WithinBounds s) : WithinBounds (countDownAll s) := by
  have deficits : DeficitsLegal (countDownAll s) := fun k => by
    have emptied : (countDownAll s).queues[k] = [] → s.queues[k] = [] := by simp
    exact DeficitLegal.of_queue (h.deficits k) emptied
  exact { h with deficits := deficits }

theorem refillMeters_within {s : State} (h : WithinBounds s) : WithinBounds (refillMeters s) := by
  have meters (m : Fin 16) : (refillMeters s).meters[m].within := by
    simpa using Meter.within_refill (h.meters m)
  exact (h.setMeters meters).congr rfl

theorem tickEvent_within {s : State} (h : WithinBounds s) : WithinBounds (tickEvent s) :=
  (expireAll_within (countDownAll_within (refillMeters_within h.restartTicks))).congr (boundedPart_noteHold _ _)

theorem refclkPeriod_within {s : State} (h : WithinBounds s) : WithinBounds (refclkPeriod s) := by
  unfold refclkPeriod
  split
  · split
    · exact tickEvent_within (h.congr rfl)
    · have ticks : s.tickCounter + 1 < s.glob.tickPeriod := Nat.lt_of_not_le ‹_›
      exact { h with ticks := ticks }
  · exact h.congr rfl

theorem boundedPart_completeOkay (s : State) (τ : Fin 32) (d : Descriptor) (data : List Beat) :
    boundedPart (completeOkay s τ d data) = boundedPart s := by
  simp only [completeOkay, boundedPart_handOn, boundedPart_freeDescriptors]
  rfl

theorem boundedPart_completeError (s : State) (τ : Fin 32) (d : Descriptor) :
    boundedPart (completeError s τ d) = boundedPart s := by
  simp only [completeError, boundedPart_handOn, boundedPart_freeDescriptors]
  rfl

theorem completionEvent_within {s : State} (τ : Fin 32) (status : MemStatus) (data : List Beat) (h : WithinBounds s) :
    WithinBounds (completionEvent τ status data s) := by
  refine h.congr ((boundedPart_noteHold _ _).trans ?_)
  split
  · cases status with
    | okay => exact boundedPart_completeOkay s τ _ data
    | error => exact boundedPart_completeError s τ _
  · rfl
  · rfl

/-! ### What a take keeps -/

theorem capture_within {s : State} (p : Fin 6) (r : Request) (res : Resolution) (c : Option Colour) (o : TakeOutcome)
    (h : WithinBounds s) : WithinBounds (capture s p r res c o) := by
  unfold capture
  split
  · exact h
  · refine (h.setCaptures (l := if _ then _ else _) ?_).congr rfl
    split
    · rename_i hroom
      rw [List.length_append]
      exact hroom
    · exact h.captures

/-- A descriptor at the tail of its queue leaves no queue empty that was not. -/
theorem admitRequest_within {s : State} (p : Fin 6) (r : Request) (x : Treatment) (h : WithinBounds s) :
    WithinBounds (admitRequest s p r x) := by
  have deficits : DeficitsLegal (admitRequest s p r x) := fun k => by
    refine DeficitLegal.of_queue (h.deficits k) ?_
    rw [admitRequest_queues, getElem_set_fin]
    split
    · simp
    · exact id
  exact { h with deficits := deficits }

theorem takeBypass_within {s : State} (p : Fin 6) (r : Request) (h : WithinBounds s) : WithinBounds (takeBypass s p r) := by
  unfold takeBypass
  split
  · exact h.congr rfl
  · exact (admitRequest_within p r (bypassTreatment s p) h).congr rfl

theorem takeAdmitted_within {s : State} (p : Fin 6) (r : Request) (res : Resolution) (c : Colour) (h : WithinBounds s) :
    WithinBounds (takeAdmitted s p r res c) :=
  ((admitRequest_within p r (enforceTreatment s res c) h).setMeters
    (chargeMeters_within h.meters res.meter c r.size)).congr rfl

theorem boundedPart_countRed (s : State) (g : Fin 24) (c : Colour) : boundedPart (countRed s g c) = boundedPart s := by
  unfold countRed
  split <;> rfl

theorem takeMetered_within {s : State} (p : Fin 6) (r : Request) (res : Resolution) (h : WithinBounds s) :
    WithinBounds (takeMetered s p r res) := by
  have drawn : (enforceDecision s p r.beats res.cls (colourAt s p r res.meter) (res.disposition == .critical)).2 ≠
      0#16 := by
    rcases enforceDecision_lottery s p r.beats res.cls (colourAt s p r res.meter) (res.disposition == .critical) with
      stays | shifts
    · exact stays ▸ h.lottery
    · exact shifts ▸ lotteryShift_ne_zero h.lottery
  have marked := (h.congr (boundedPart_countRed s res.group (colourAt s p r res.meter))).setLottery drawn
  simp only [takeMetered]
  split
  · exact capture_within p r res _ _ (marked.congr rfl)
  · exact capture_within p r res _ _ (takeAdmitted_within p r res _ marked)

theorem takeEnforce_within {s : State} (p : Fin 6) (r : Request) (h : WithinBounds s) :
    WithinBounds (takeEnforce s p r) := by
  simp only [takeEnforce]
  split
  · exact capture_within p r _ _ _ (h.congr rfl)
  · exact takeMetered_within p r _ h

theorem takeRequest_within {s : State} (p : Fin 6) (r : Request) (h : WithinBounds s) :
    WithinBounds (takeRequest s p r) := by
  have accepted : WithinBounds (acceptRequest s p) := h.congr rfl
  simp only [takeRequest]
  split
  · exact accepted.congr rfl
  · split
    · exact (takeBypass_within p r accepted).congr rfl
    · exact (takeEnforce_within p r accepted).congr rfl

theorem takeEvent_within {s : State} (h : WithinBounds s) : WithinBounds (takeEvent s) := by
  unfold takeEvent
  split
  · exact h
  · split
    · exact h
    · exact takeRequest_within _ _ h

/-! ### What the resets keep -/

theorem inReset_within (s : State) (ph : Phase) (cause : ResetCause) (high : Bool) :
    WithinBounds (inReset s ph cause high) := withinBounds_reset.congr rfl

theorem governorReset_within (s : State) (strap : Bool) : WithinBounds (governorReset s strap) :=
  withinBounds_reset.congr rfl

theorem leaveReset_within {s : State} (e : ResetEnd) (h : WithinBounds s) : WithinBounds (leaveReset s e) :=
  h.restartTicks.congr rfl

theorem lineResetEvent_within {s : State} (h : WithinBounds s) : WithinBounds (lineResetEvent s) := by
  unfold lineResetEvent
  split
  · exact inReset_within _ _ _ _
  · exact h.congr rfl
  · exact h.congr rfl

theorem endOfResetEvent_within {s : State} (e : ResetEnd) (h : WithinBounds s) : WithinBounds (endOfResetEvent s e) := by
  unfold endOfResetEvent
  split
  · exact h.congr rfl
  · split
    · exact leaveReset_within e h
    · exact h.congr rfl
  · split
    · exact leaveReset_within e h
    · exact h.congr rfl

/-! ### What the frames' commands keep -/

/-- A POP_CAPTURE takes a record away at most (R158). -/
theorem popEnd_within {s : State} (o : Snapshot) (h : WithinBounds s) : WithinBounds (popEnd o s).1 := by
  unfold popEnd
  split
  · have shorter : s.captures.tail.length ≤ s.captures.length := by
      rw [List.length_tail]
      exact Nat.sub_le _ _
    exact h.setCaptures (shorter.trans h.captures)
  · exact h

theorem clearGroupAct_within {s : State} (f : FrameBits) (h : WithinBounds s) : WithinBounds (clearGroupAct f s).1 := by
  unfold clearGroupAct
  split
  · exact h
  · exact h.congr rfl

theorem clearEventsAct_within {s : State} (f : FrameBits) (h : WithinBounds s) :
    WithinBounds (clearEventsAct f s).1 := by
  unfold clearEventsAct
  split
  · exact h.congr (by simp only [boundedPart])
  · exact h

theorem drainAct_within {s : State} (h : WithinBounds s) : WithinBounds (drainAct s).1 := by
  unfold drainAct
  split
  · exact h.congr rfl
  · exact h

theorem setModeAct_within {s : State} (f : FrameBits) (h : WithinBounds s) : WithinBounds (setModeAct f s).1 := by
  unfold setModeAct
  split
  · exact h
  · split
    · simp only
      split
      · exact h
      · exact h.congr ((boundedPart_noteHold _ _).trans (boundedPart_evalLatches _ _ _ _))
    · exact h

theorem reclaimAct_within {s : State} (h : WithinBounds s) : WithinBounds (reclaimAct s).1 :=
  h.congr (by simp only [boundedPart, reclaimAct])

/-- A seed of two bytes that is not refused is not 0 in the register either (R80). -/
theorem setSeedAct_within {s : State} (f : FrameBits) (h : WithinBounds s) : WithinBounds (setSeedAct f s).1 := by
  by_cases hseed : numAt f.bytes 2 2 = 0
  · rw [setSeedAct_zero s hseed]
    exact h
  · rw [setSeedAct_nonzero s hseed, ← seed_eq_append]
    refine h.setLottery fun hzero => hseed ?_
    have value := congrArg BitVec.toNat hzero
    rwa [BitVec.toNat_ofNat, Nat.mod_eq_of_lt (show _ < 2 ^ 16 from numAt_lt f.bytes 2 2)] at value

theorem applyGlobal_within {s : State} {r : GlobalRecord} (h : WithinBounds s) (hr : GlobalLegal r) :
    WithinBounds (applyGlobal s r) := by
  obtain ⟨-, ports, classes, sum⟩ := h.settings
  have ticks : (applyGlobal s r).tickCounter < r.tickPeriod := lt_of_lt_of_le (by decide : 0 < 16) hr.1
  exact { h with settings := ⟨hr, ports, classes, sum⟩, ticks := ticks }

theorem writeGlobalEntry_within {s : State} (b : Byte) (d : List Byte) (h : WithinBounds s) :
    WithinBounds (writeGlobalEntry b d s).1 := by
  unfold writeGlobalEntry
  split
  · rename_i hpass
    exact applyGlobal_within h (globalOf_legal hpass.2)
  · exact h

theorem applyPort_within {s : State} {r : PortRecord} (p : Fin 6) (h : WithinBounds s) (hr : PortLegal r) :
    WithinBounds (applyPort s p r) := by
  obtain ⟨glob, ports, classes, sum⟩ := h.settings
  have written (q : Fin 6) : PortLegal (s.portRec.set p r)[q] := by
    rw [getElem_set_fin]
    split
    · exact hr
    · exact ports q
  exact { h with settings := ⟨glob, written, classes, sum⟩ }

theorem writePortEntry_within {s : State} (b : Byte) (d : List Byte) (h : WithinBounds s) :
    WithinBounds (writePortEntry b d s).1 := by
  unfold writePortEntry
  split
  · exact h
  · split
    · rename_i hpass
      exact applyPort_within _ h (portOf_legal hpass)
    · exact h

/-- A class whose record is replaced starts again with deficit 0, so that its new mode asks nothing of it (R84, R107). -/
theorem applyClass_within {s : State} {k : Fin 8} {r : ClassRecord} (h : WithinBounds s) (hr : ClassLegal r)
    (hsum : reservationSum (s.classRec.set k r) ≤ Config.reservationCap) : WithinBounds (applyClass s k r) := by
  obtain ⟨glob, ports, classes, -⟩ := h.settings
  have written (j : Fin 8) : ClassLegal (s.classRec.set k r)[j] := by
    rw [getElem_set_fin]
    split
    · exact hr
    · exact classes j
  have deficits : DeficitsLegal (applyClass s k r) := fun j => by
    rw [applyClass_sched, applyClass_queues, applyClass_classRec]
    simp only [getElem_set_fin]
    split
    · exact deficitLegal_zero _ _
    · exact h.deficits j
  exact { h with settings := ⟨glob, ports, written, hsum⟩, deficits := deficits }

theorem writeClassEntry_within {s : State} (b : Byte) (d : List Byte) (h : WithinBounds s) :
    WithinBounds (writeClassEntry b d s).1 := by
  unfold writeClassEntry
  split
  · exact h
  · split
    · rename_i k _ hpass
      obtain ⟨hfields, hres⟩ := Bool.and_eq_true_iff.1 hpass
      exact applyClass_within h (classOf_legal hfields) ((reservationOk_iff s.classRec k (classOf d)).1 hres)
    · exact h

/-- A METER entry that passes leaves tokens clipped to its sizes, or both buckets full (R56, R57). -/
theorem meterWritten_within {d : List Byte} (m : Meter) (h : meterEntryOk d = true) : (meterWritten m d).within := by
  simp only [meterEntryOk, Bool.and_eq_true, decide_eq_true_eq] at h
  obtain ⟨⟨hcbs, hebs⟩, -⟩ := h
  refine ⟨Nat.le_of_lt_succ (numAt_lt d 0 2), hcbs, hebs, ?_, ?_⟩
  · simp only [meterWritten]
    split
    · exact le_rfl
    · exact min_le_right _ _
  · simp only [meterWritten]
    split
    · exact le_rfl
    · exact min_le_right _ _

theorem writeMeterEntry_within {s : State} (b : Byte) (d : List Byte) (h : WithinBounds s) :
    WithinBounds (writeMeterEntry b d s).1 := by
  unfold writeMeterEntry
  split
  · exact h
  · split
    · rename_i m _ hpass
      have written (j : Fin 16) : (s.meters.set m (meterWritten s.meters[m] d))[j].within := by
        rw [getElem_set_fin]
        split
        · exact meterWritten_within _ hpass
        · exact h.meters j
      exact (h.setMeters written).congr rfl
    · exact h

theorem writeRuleHalf_within {s : State} (ok : Bool) (half : Rule → Rule) (b : Byte) (h : WithinBounds s) :
    WithinBounds (writeRuleHalf ok half b s).1 := by
  unfold writeRuleHalf
  split
  · exact h
  · split
    · exact h.congr rfl
    · exact h

theorem writePatternEntry_within {s : State} (b : Byte) (d : List Byte) (h : WithinBounds s) :
    WithinBounds (writePatternEntry b d s).1 := writePatternEntry_eq b d s ▸ writeRuleHalf_within _ _ b h

theorem writeActionEntry_within {s : State} (b : Byte) (d : List Byte) (h : WithinBounds s) :
    WithinBounds (writeActionEntry b d s).1 := writeActionEntry_eq b d s ▸ writeRuleHalf_within _ _ b h

theorem writeMaskEntry_within {s : State} (b : Byte) (d : List Byte) (h : WithinBounds s) :
    WithinBounds (writeMaskEntry b d s).1 := by
  unfold writeMaskEntry
  split
  · exact h.congr rfl
  · exact h

/-! ### Every step keeps the bounds -/

/-- Every command keeps the bounds. -/
theorem exec_within (c : Instr) {s : State} (h : WithinBounds s) : NextHas WithinBounds (exec c s) := by
  have blind := withinBounds_ignoresInterface
  cases c with
  | requestPresented p r => exact nextHas_next (h.congr rfl)
  | take => exact whileRunning_keeps blind takeEvent_within h
  | issue ready => exact whileRunning_keeps blind issueEvent_within (h.congr rfl : WithinBounds (withReady s ready))
  | completion τ status data => exact whileRunning_keeps blind (completionEvent_within τ status data) h
  | tick => exact whileRunning_keeps blind tickEvent_within h
  | expiry => exact whileRunning_keeps blind (fun hu => (expireAll_within hu).congr rfl) h
  | quiesceChange e =>
    exact whileRunning_keeps blind (fun hu => hu.congr rfl) (h.congr rfl : WithinBounds (withQuiesce s e))
  | powerOnReset => exact nextHas_next (inReset_within _ _ _ _)
  | lineReset => exact nextHas_next (lineResetEvent_within h)
  | readEntry m t f => exact readFrame_keeps blind m f _ _ _ (fun _ _ hu => hu) h
  | writeEntry t f => exact tableFrame_keeps blind t.table f (act := fun _ _ => refuseWrite) (fun _ _ _ hu => hu) h
  | writeGlobal f => exact tableFrame_keeps blind .global f (fun b d _ => writeGlobalEntry_within b d) h
  | writePort f => exact tableFrame_keeps blind .port f (fun b d _ => writePortEntry_within b d) h
  | writeClass f => exact tableFrame_keeps blind .cls f (fun b d _ => writeClassEntry_within b d) h
  | writeMeter f => exact tableFrame_keeps blind .meter f (fun b d _ => writeMeterEntry_within b d) h
  | meterLoad f => exact tableFrame_keeps blind .meter f (fun b d _ => writeMeterEntry_within b d) h
  | writeRulePattern f => exact tableFrame_keeps blind .rulePattern f (fun b d _ => writePatternEntry_within b d) h
  | writeRuleAction f => exact tableFrame_keeps blind .ruleAction f (fun b d _ => writeActionEntry_within b d) h
  | writeEventMask f => exact tableFrame_keeps blind .eventMask f (fun b d _ => writeMaskEntry_within b d) h
  | popCapture m f => exact readFrame_keeps blind m f _ _ _ (fun o _ => popEnd_within o) h
  | swapBanks f => exact commandFrame_keeps blind .swapBanks f (fun hu => hu.congr rfl) h
  | clearGroup f => exact commandFrame_keeps blind .clearGroup f (clearGroupAct_within f) h
  | clearAllCounters f => exact commandFrame_keeps blind .clearAllCounters f (fun hu => hu.congr rfl) h
  | clearEvents f => exact commandFrame_keeps blind .clearEvents f (clearEventsAct_within f) h
  | clearCause f => exact commandFrame_keeps blind .clearCause f (fun hu => hu.congr rfl) h
  | drain f => exact commandFrame_keeps blind .drain f drainAct_within h
  | release f => exact commandFrame_keeps blind .release f (fun hu => hu.congr rfl) h
  | setMode f => exact commandFrame_keeps blind .setMode f (setModeAct_within f) h
  | setSeed f => exact commandFrame_keeps blind .setSeed f (setSeedAct_within f) h
  | reclaimTags f => exact commandFrame_keeps blind .reclaimTags f reclaimAct_within h
  | governorReset strap f =>
    exact commandFrame_keeps (act := fun t => (governorReset t strap, .done)) blind .governorReset f
      (fun _ => governorReset_within _ strap) h
  | badFrame f => exact nextHas_next (badFrameEvent_keeps blind f h)
  | endOfReset e => exact nextHas_next (endOfResetEvent_within e h)
  | csNHighAfterReset => exact whileRunning_keeps blind (fun hu => hu.congr rfl) h

theorem step_within {s : State} (h : WithinBounds s) : NextHas WithinBounds (step s) := by
  cases hp : s.pending with
  | nil => exact step_nil hp ▸ nextHas_next (refclkPeriod_within h)
  | cons c rest => exact step_cons hp ▸ exec_within c (withinBounds_ignoresInterface.withPending rest h)

/-- Settles O58: by the command or the REFCLK period the step runs. -/
theorem settingsAndBoundsKept : Obligations.SettingsAndBoundsKept := by
  intro s t settings meters lottery deficits captures ticks hstep
  obtain ⟨settings', meters', lottery', deficits', captures', ticks'⟩ :=
    step_within ⟨settings, meters, lottery, deficits, captures, ticks⟩ t hstep
  exact ⟨settings', meters', lottery', deficits', captures', ticks'⟩

/-! ### The colour and the charge -/

theorem preColour_blind {r : PortRecord} (h : r.colourAware = false) (hint : Fin 4) : preColour r hint = .green := by
  simp only [preColour, h, Bool.false_eq_true, if_false]

theorem preColour_aware {r : PortRecord} (h : r.colourAware = true) (hint : Fin 4) :
    preColour r hint = r.colourMap[hint] := by
  simp only [preColour, h, if_true]

/-- The colour under a meter, by the pre-colour (R50, R51). -/
theorem colourAt_metered (s : State) (p : Fin 6) (r : Request) (m : Fin 16) {pre : Colour}
    (h : preColour s.portRec[p] r.hint = pre) : colourAt s p r (some m) = s.meters[m].colour pre (r.beats * 8) := by
  subst h
  rfl

/-- Settles O14: the pre-colour by the port's awareness, and the colour by the pre-colour. -/
theorem colourFromMeter : Obligations.ColourFromMeter := by
  intro s p r m
  refine ⟨fun hblind => ?_, fun haware => ?_⟩
  · have pre := preColour_blind hblind r.hint
    exact ⟨colourAt_metered s p r m pre, pre⟩
  · have pre := preColour_aware haware r.hint
    exact ⟨pre, fun hgreen => colourAt_metered s p r m (pre.trans hgreen),
      fun hyellow => colourAt_metered s p r m (pre.trans hyellow), fun hred => colourAt_metered s p r m (pre.trans hred)⟩

/-- A green transaction has its bytes in C, under any pre-colour (R50, R51). -/
theorem Meter.colour_green {m : Meter} {pre : Colour} {n : Nat} (h : m.colour pre n = .green) : n ≤ m.c := by
  cases pre with
  | green =>
    by_contra hshort
    simp only [Meter.colour, hshort, if_false] at h
    split at h <;> cases h
  | yellow =>
    simp only [Meter.colour] at h
    split at h <;> cases h
  | red => cases h

/-- A yellow transaction has its bytes in E, under any pre-colour (R50, R51). -/
theorem Meter.colour_yellow {m : Meter} {pre : Colour} {n : Nat} (h : m.colour pre n = .yellow) : n ≤ m.e := by
  cases pre with
  | green =>
    by_contra hshort
    simp only [Meter.colour, hshort, if_false] at h
    split at h <;> cases h
  | yellow =>
    by_contra hshort
    simp only [Meter.colour, hshort, if_false] at h
    cases h
  | red => cases h

/-- Settles O15: the charge by the meter and the colour, and the tokens by the colour given. -/
theorem chargeByColour : Obligations.ChargeByColour := by
  intro s p r m
  exact ⟨fun _ => rfl, fun c j hj => chargeMeters_getElem_other s.meters hj c _,
    chargeMeters_getElem_same s.meters m .green _, chargeMeters_getElem_same s.meters m .yellow _,
    chargeMeters_getElem_same s.meters m .red _, Meter.colour_green (n := r.size), Meter.colour_yellow (n := r.size)⟩

/-! ### The tick and the REFCLK period -/

/-- Of what has bounds, a tick leaves the meters refilled and the counter at 0 (R43, R47). -/
theorem tickEvent_meters_ticks (s : State) :
    (tickEvent s).meters = .ofFn (fun m => s.meters[m].refill) ∧ (tickEvent s).tickCounter = 0 := by
  have kept := (boundedPart_noteHold s _).trans
    (boundedPart_expireAll (countDownAll (refillMeters { s with tickCounter := 0 })))
  simp only [boundedPart, Prod.mk.injEq] at kept
  obtain ⟨-, ⟨meters, ticks⟩, -⟩ := kept
  exact ⟨meters, ticks⟩

theorem tickEvent_getElem_meters (s : State) (m : Fin 16) : (tickEvent s).meters[m] = s.meters[m].refill := by
  rw [(tickEvent_meters_ticks s).1]
  simp

theorem Meter.refill_settings (m : Meter) : m.refill.cir = m.cir ∧ m.refill.cbs = m.cbs ∧ m.refill.ebs = m.ebs := by
  unfold Meter.refill
  split <;> exact ⟨rfl, rfl, rfl⟩

/-- Settles O32: each meter is refilled, by whether its committed bucket holds the refill. -/
theorem tickRefillsMeters : Obligations.TickRefillsMeters := by
  intro s hrun
  refine ⟨tickEvent s.quiet, whileRunning_running tickEvent hrun, (tickEvent_meters_ticks s.quiet).2, fun m => ?_⟩
  obtain ⟨cir, cbs, ebs⟩ := s.meters[m].refill_settings
  rw [tickEvent_getElem_meters, quiet_meters]
  refine ⟨cir, cbs, ebs, fun hfits => ?_, fun hspills => ?_⟩
  · rw [Meter.refill_fits hfits]
    exact ⟨rfl, rfl⟩
  · rw [Meter.refill_spills hspills]
    exact ⟨rfl, rfl⟩

theorem refclkPeriod_counts {s : State} (hrun : s.phase = .running) (h : s.tickCounter + 1 < s.glob.tickPeriod) :
    refclkPeriod s = { s.quiet with tickCounter := s.tickCounter + 1 } := by
  simp only [refclkPeriod, hrun, not_le.2 h, if_true, if_false]

theorem refclkPeriod_ticks {s : State} (hrun : s.phase = .running) (h : s.glob.tickPeriod ≤ s.tickCounter + 1) :
    refclkPeriod s = tickEvent s.quiet := by
  simp only [refclkPeriod, hrun, h, if_true]

theorem refclkPeriod_inReset {s : State} (hreset : s.phase ≠ .running) : refclkPeriod s = s.quiet := by
  simp only [refclkPeriod, hreset, if_false]

theorem exec_tick {s : State} (hrun : s.phase = .running) : exec .tick s = .next (tickEvent s.quiet) :=
  whileRunning_running tickEvent hrun

/-- Settles O2: by what the REFCLK period does. -/
theorem emptyQueueCountsOnePeriod : Obligations.EmptyQueueCountsOnePeriod := by
  intro s hempty
  rw [step_nil hempty]
  refine ⟨fun hrun hcounts => ?_, fun hrun hticks => ?_, fun hreset => ?_⟩
  · rw [refclkPeriod_counts hrun hcounts]
    rfl
  · rw [refclkPeriod_ticks hrun hticks, exec_tick hrun]
  · rw [refclkPeriod_inReset hreset]
    rfl

/-! ### WRITE_GLOBAL -/

theorem writeGlobalEntry_passes {b : Byte} {d : List Byte} (s : State) (hb : b = 0#8) (hok : globalOk d = true) :
    writeGlobalEntry b d s = (applyGlobal s (globalOf d), .done) := by
  simp only [writeGlobalEntry, hb, hok, and_self, if_true]

theorem writeGlobalEntry_refused {b : Byte} {d : List Byte} (s : State) (h : b ≠ 0#8 ∨ globalOk d = false) :
    writeGlobalEntry b d s = (s, .refused) := by
  have fails : ¬(b = 0#8 ∧ globalOk d = true) := by
    rw [not_and_or, Bool.not_eq_true]
    exact h
  simp only [writeGlobalEntry, fails, if_false, refuseWrite]

/-- Only LINE can have come to a set that was empty where COMMAND stays as it was (R95). -/
theorem requests_newlyMade (x : Drain) (line : Bool) :
    ((x.command || line) && !x.requested) = (line && !x.requested) := by
  unfold Drain.requested
  cases x.command <;> simp

/-- A replaced line puts the drain request set and its state where R95 says, with DRAIN_DONE only where LINE alone completes a
drain at once. -/
theorem setRequests_line (s : State) (line : Bool) :
    setRequests s s.drain.command line =
      { s with
        drain := { s.drain with
          line := line
          opState := opStateWith s.drain s.loads.liveCount s.drain.command line }
        events := { s.events with
          sticky := stickyWith s.events.sticky
            (line && !s.drain.requested && decide (s.loads.liveCount = 0)) .drainDone } } := by
  rw [setRequests, requests_newlyMade]

/-- LINE after a GLOBAL write: out, and back only under LEVEL_LOW with the line low (R99). -/
def lineAfterGlobal (s : State) (r : GlobalRecord) : Bool := r.quiesceMode == .levelLow && !s.pins.quiesceHigh

/-- The latches after a GLOBAL write: the global latch is evaluated against the new record (R90). -/
def holdAfterGlobal (s : State) (r : GlobalRecord) : HoldLatches :=
  latchesAfter { s with glob := r } true (fun _ => false) fun _ => false

theorem applyGlobal_eq (s : State) (r : GlobalRecord) :
    applyGlobal s r =
      { s with
        glob := r
        tickCounter := 0
        drain := { s.drain with
          line := lineAfterGlobal s r
          opState := opStateWith s.drain s.loads.liveCount s.drain.command (lineAfterGlobal s r) }
        hold := holdAfterGlobal s r
        events := { s.events with
          sticky := stickyWith
            (stickyWith s.events.sticky
              (lineAfterGlobal s r && !s.drain.requested && decide (s.loads.liveCount = 0)) .drainDone)
            (heldMoves s (holdAfterGlobal s r)) .holdChange } } := by
  have requests := setRequests_line { s with glob := r, tickCounter := 0 } (lineAfterGlobal s r)
  exact congrArg (fun u => noteHold s (evalLatches u true (fun _ => false) fun _ => false)) requests

/-- Settles O46: a passing entry ends in `applyGlobal`, any other leaves the state. -/
theorem writeGlobalFrame : Obligations.WriteGlobalFrame := by
  intro f s hready hend
  refine ⟨fun hindex hok => ?_, fun h => ?_, globalOf_legal⟩
  · have passes := writeGlobalEntry_passes (atFrameEnd s f 2) hindex hok
    rw [applyGlobal_eq] at passes
    exact tableFrame_ends (t := .global) hready hend passes
  · exact tableFrame_ends (t := .global) hready hend (writeGlobalEntry_refused _ h)

/-! ### WRITE_METER and METER_LOAD -/

theorem flagOk_iff (d : List Byte) (i : Nat) : flagOk d i = true ↔ byteAt d i = 0x00#8 ∨ byteAt d i = 0x01#8 := by
  rw [flagOk, decide_eq_true_eq, natAt, ← BitVec.toNat_inj, ← BitVec.toNat_inj]
  simp only [BitVec.toNat_ofNat]
  omega

theorem flagAt_eq (d : List Byte) (i : Nat) : flagAt d i = decide (byteAt d i = 0x01#8) := by
  rw [flagAt, Bool.eq_iff_iff, beq_iff_eq, decide_eq_true_eq, natAt, ← BitVec.toNat_inj]
  rfl

theorem meterEntryOk_iff (d : List Byte) :
    meterEntryOk d = true ↔
      numAt d 2 3 ≤ 262143 ∧ numAt d 5 3 ≤ 262143 ∧ (byteAt d 8 = 0x00#8 ∨ byteAt d 8 = 0x01#8) := by
  rw [meterEntryOk, Bool.and_eq_true, Bool.and_eq_true, decide_eq_true_eq, decide_eq_true_eq, flagOk_iff, and_assoc]

theorem indexBelow_outOfRange {n : Nat} {b : Byte} (h : n ≤ b.toNat) : indexBelow n b = none := by
  simp only [indexBelow, not_lt.2 h, dite_false]

theorem writeMeterEntry_passes {d : List Byte} (s : State) (m : Fin 16) (hok : meterEntryOk d = true) :
    writeMeterEntry (BitVec.ofNat 8 m.val) d s = (applyMeter s m d, .done) := by
  simp only [writeMeterEntry, indexBelow_ofNat (by decide : 16 ≤ 256) m, hok, if_true]

theorem writeMeterEntry_refused {b : Byte} {d : List Byte} (s : State) (h : 16 ≤ b.toNat ∨ meterEntryOk d = false) :
    writeMeterEntry b d s = (s, .refused) := by
  unfold writeMeterEntry
  split
  · rfl
  · rename_i m hm
    rcases h with hrange | hfails
    · rw [indexBelow_outOfRange hrange] at hm
      cases hm
    · rw [hfails]
      rfl

theorem exec_meterFrame {i : Instr} {f : FrameBits} (h : i = .writeMeter f ∨ i = .meterLoad f) (s : State) :
    exec i s = tableFrame s .meter f writeMeterEntry := by
  rcases h with rfl | rfl <;> rfl

/-- Settles O49: both rows run one write, which takes LOAD from the frame's own byte. -/
theorem writeMeterFrames : Obligations.WriteMeterFrames := by
  intro i f s hi hready hend
  rw [exec_meterFrame hi]
  refine ⟨fun m hindex hok => ?_, fun h => ?_⟩
  · have passes := writeMeterEntry_passes (atFrameEnd s f 2) m ((meterEntryOk_iff f.bytes.tail).2 hok)
    rw [← hindex] at passes
    have written := tableFrame_ends (t := .meter) hready hend passes
    rw [← flagAt_eq]
    exact written
  · rw [← meterEntryOk_iff, Bool.not_eq_true] at h
    exact tableFrame_ends (t := .meter) hready hend (writeMeterEntry_refused _ h)

end Sys2Proof.Machine
end

section
/-! PROOFS. Admission control: the load quantities against the live descriptors (O56), the ENFORCE decision with its thresholds
and the lottery, the completions that free a descriptor, and the frame that writes CLASS. -/

namespace Sys2Proof.Machine

/-! ### The beats of a list of descriptors -/

theorem beatsWhere_cons (d : Descriptor) (ds : List Descriptor) (f : Descriptor → Bool) :
    beatsWhere (d :: ds) f = (if f d then d.beats else 0) + beatsWhere ds f := by
  simp only [beatsWhere, List.filter_cons]
  split <;> simp

theorem beatsWhere_append (ds es : List Descriptor) (f : Descriptor → Bool) :
    beatsWhere (ds ++ es) f = beatsWhere ds f + beatsWhere es f := by
  simp only [beatsWhere, List.filter_append, List.map_append, List.sum_append]

theorem beatsWhere_perm {ds es : List Descriptor} (h : ds.Perm es) (f : Descriptor → Bool) :
    beatsWhere ds f = beatsWhere es f := ((h.filter f).map Descriptor.beats).sum_eq

theorem beatsWhere_all (ds : List Descriptor) : beatsWhere ds (fun _ => true) = (ds.map Descriptor.beats).sum := by
  rw [beatsWhere, List.filter_true]

/-- A change of the descriptors that neither the test nor their beats see. -/
theorem beatsWhere_map (ds : List Descriptor) {f : Descriptor → Bool} {g : Descriptor → Descriptor}
    (hf : ∀ d, f (g d) = f d) (hg : ∀ d, (g d).beats = d.beats) : beatsWhere (ds.map g) f = beatsWhere ds f := by
  simp only [beatsWhere, List.filter_map, List.map_map, Function.comp_def, hf, hg]

/-! ### How the load quantities move -/

section Loads
variable (l : Loads) (recs : Vector ClassRecord 8)

theorem Loads.add_occ (p : Fin 6) (k j : Fin 8) (n : Nat) :
    (l.add recs p k n).occ[j] = if j = k then l.occ[k] + n else l.occ[j] := by
  simp only [Loads.add, getElem_set_fin, eq_comm (a := j)]

theorem Loads.add_portLoad (p q : Fin 6) (k : Fin 8) (n : Nat) :
    (l.add recs p k n).portLoad[q] = if q = p then l.portLoad[p] + n else l.portLoad[q] := by
  simp only [Loads.add, getElem_set_fin, eq_comm (a := q)]

theorem Loads.free_occ (ds : List Descriptor) (k : Fin 8) :
    (l.free recs ds).occ[k] = l.occ[k] - beatsWhere ds fun d => d.cls == k := by
  simp [Loads.free, occWithout]

theorem Loads.free_portLoad (ds : List Descriptor) (p : Fin 6) :
    (l.free recs ds).portLoad[p] = l.portLoad[p] - beatsWhere ds fun d => d.port == p := by
  simp [Loads.free]

end Loads

/-- Settles O19: the entries of each vector by its lemma, the other quantities by the definitions of rise and fall. -/
theorem loadsRiseAndFall : Obligations.LoadsRiseAndFall := by
  intro l recs
  refine ⟨fun p k n => ?_, fun ds => ?_⟩
  · exact ⟨rfl, rfl, fun j => Loads.add_occ l recs p k j n, fun q => Loads.add_portLoad l recs p q k n, rfl, rfl⟩
  · exact ⟨rfl, congrArg (l.totalLoad - ·) (beatsWhere_all ds), Loads.free_occ l recs ds,
      Loads.free_portLoad l recs ds, rfl, rfl⟩

/-! ### Load quantities against a list of descriptors -/

/-- The load quantities are those of the descriptors `ds` under the reservations `recs` (R61, R62). -/
structure LoadsFit (ds : List Descriptor) (recs : Vector ClassRecord 8) (l : Loads) : Prop where
  liveCount      : l.liveCount = ds.length
  totalLoad      : l.totalLoad = beatsWhere ds fun _ => true
  occ            : ∀ k : Fin 8, l.occ[k] = beatsWhere ds fun d => d.cls == k
  portLoad       : ∀ p : Fin 6, l.portLoad[p] = beatsWhere ds fun d => d.port == p
  sharedLoad     : l.sharedLoad = sharedLoadOf l.occ recs
  sharedCapacity : l.sharedCapacity = sharedCapacityOf recs

theorem loadsAgree_iff (s : State) : LoadsAgree s ↔ LoadsFit (liveDescriptors s) s.classRec s.loads :=
  ⟨fun ⟨count, total, occ, port, shared, capacity⟩ => ⟨count, total, occ, port, shared, capacity⟩,
    fun ⟨count, total, occ, port, shared, capacity⟩ => ⟨count, total, occ, port, shared, capacity⟩⟩

section Fit
variable {ds es rest : List Descriptor} {recs : Vector ClassRecord 8} {l : Loads}

/-- The quantities see how many descriptors there are, and the beats of each class and port. -/
theorem LoadsFit.of_beats (h : LoadsFit ds recs l) (hlen : es.length = ds.length)
    (hall : (beatsWhere es fun _ => true) = beatsWhere ds fun _ => true)
    (hcls : ∀ k : Fin 8, (beatsWhere es fun d => d.cls == k) = beatsWhere ds fun d => d.cls == k)
    (hport : ∀ p : Fin 6, (beatsWhere es fun d => d.port == p) = beatsWhere ds fun d => d.port == p) :
    LoadsFit es recs l where
  liveCount := h.liveCount.trans hlen.symm
  totalLoad := h.totalLoad.trans hall.symm
  occ k := (h.occ k).trans (hcls k).symm
  portLoad p := (h.portLoad p).trans (hport p).symm
  sharedLoad := h.sharedLoad
  sharedCapacity := h.sharedCapacity

theorem LoadsFit.perm (h : LoadsFit ds recs l) (hp : ds.Perm es) : LoadsFit es recs l :=
  h.of_beats hp.symm.length_eq (beatsWhere_perm hp.symm _) (fun _ => beatsWhere_perm hp.symm _)
    fun _ => beatsWhere_perm hp.symm _

theorem LoadsFit.map (h : LoadsFit ds recs l) {g : Descriptor → Descriptor} (hcls : ∀ d, (g d).cls = d.cls)
    (hport : ∀ d, (g d).port = d.port) (hbeats : ∀ d, (g d).beats = d.beats) : LoadsFit (ds.map g) recs l :=
  h.of_beats (List.length_map _) (beatsWhere_map ds (fun _ => rfl) hbeats)
    (fun k => beatsWhere_map ds (fun d => by rw [hcls]) hbeats)
    fun p => beatsWhere_map ds (fun d => by rw [hport]) hbeats

/-- One descriptor replaced by another of its class, port and beats. -/
theorem LoadsFit.relabel {d e : Descriptor} (h : LoadsFit (d :: ds) recs l) (hcls : e.cls = d.cls)
    (hport : e.port = d.port) (hbeats : e.beats = d.beats) : LoadsFit (e :: ds) recs l := by
  refine h.of_beats rfl ?_ (fun k => ?_) (fun p => ?_) <;> simp only [beatsWhere_cons, hcls, hport, hbeats]

/-- A descriptor joins, and the quantities rise by its beats (R61). -/
theorem LoadsFit.add (h : LoadsFit ds recs l) (d : Descriptor) :
    LoadsFit (d :: ds) recs (l.add recs d.port d.cls d.beats) where
  liveCount := congrArg (· + 1) h.liveCount
  totalLoad := by
    rw [beatsWhere_cons, if_pos rfl, ← h.totalLoad, Nat.add_comm]
    rfl
  occ k := by
    rw [Loads.add_occ, beatsWhere_cons, ← h.occ]
    by_cases hk : k = d.cls
    · simp [hk, Nat.add_comm]
    · simp [hk, Ne.symm hk]
  portLoad p := by
    rw [Loads.add_portLoad, beatsWhere_cons, ← h.portLoad]
    by_cases hp : p = d.port
    · simp [hp, Nat.add_comm]
    · simp [hp, Ne.symm hp]
  sharedLoad := rfl
  sharedCapacity := h.sharedCapacity

/-- Descriptors leave, and the quantities fall by what they held (R61, R63). -/
theorem LoadsFit.free (h : LoadsFit (ds ++ rest) recs l) : LoadsFit rest recs (l.free recs ds) where
  liveCount := by
    have count := h.liveCount
    rw [List.length_append] at count
    exact Nat.sub_eq_of_eq_add' count
  totalLoad := Nat.sub_eq_of_eq_add' (h.totalLoad.trans (beatsWhere_append ds rest _))
  occ k := (Loads.free_occ l recs ds k).trans (Nat.sub_eq_of_eq_add' ((h.occ k).trans (beatsWhere_append ds rest _)))
  portLoad p :=
    (Loads.free_portLoad l recs ds p).trans (Nat.sub_eq_of_eq_add' ((h.portLoad p).trans (beatsWhere_append ds rest _)))
  sharedLoad := rfl
  sharedCapacity := h.sharedCapacity

/-- New reservations move the shared figures alone (R62, R67). -/
theorem LoadsFit.recompute (h : LoadsFit ds recs l) (recs' : Vector ClassRecord 8) :
    LoadsFit ds recs' (l.recompute recs') where
  liveCount := h.liveCount
  totalLoad := h.totalLoad
  occ := h.occ
  portLoad := h.portLoad
  sharedLoad := rfl
  sharedCapacity := rfl

end Fit

/-- No more than 64 descriptors and 1024 beats (R61). -/
def LoadsWithin (l : Loads) : Prop := l.liveCount ≤ Config.descriptorLimit ∧ l.totalLoad ≤ Config.poolBeats

/-- What step 1 of the decision has let through fits the table and the pool (R72). -/
theorem LoadsWithin.add {l : Loads} {n : Nat} (h : LoadsWithin l) (hroom : poolFull l n = false)
    (recs : Vector ClassRecord 8) (p : Fin 6) (k : Fin 8) : LoadsWithin (l.add recs p k n) := by
  obtain ⟨count, -⟩ := h
  rw [← Bool.not_eq_true, poolFull_iff, not_or, not_lt] at hroom
  obtain ⟨notFull, fits⟩ := hroom
  exact ⟨Nat.lt_of_le_of_ne count notFull, fits⟩

theorem LoadsWithin.free {l : Loads} (h : LoadsWithin l) (recs : Vector ClassRecord 8) (ds : List Descriptor) :
    LoadsWithin (l.free recs ds) := ⟨(Nat.sub_le _ _).trans h.1, (Nat.sub_le _ _).trans h.2⟩

/-! ### The invariant of the load quantities -/

/-- What O56 says of every moment. -/
structure LoadsSettled (s : State) : Prop where
  fit    : LoadsFit (liveDescriptors s) s.classRec s.loads
  within : LoadsWithin s.loads

theorem loadsSettled_iff (s : State) : LoadsSettled s ↔ LoadsAgree s ∧ LoadsBounded s := by
  rw [loadsAgree_iff]
  exact ⟨fun ⟨fit, within⟩ => ⟨fit, within⟩, fun ⟨fit, within⟩ => ⟨fit, within⟩⟩

/-- The fields that `LoadsSettled` speaks of. -/
def loadedPart (s : State) : Loads × Vector ClassRecord 8 × Vector (List Descriptor) 8 × Vector TagState 32 :=
  (s.loads, s.classRec, s.queues, s.tags)

theorem loadedPart_eq {t : State} {l : Loads} {recs : Vector ClassRecord 8} {queues : Vector (List Descriptor) 8}
    {tags : Vector TagState 32} (h : loadedPart t = (l, recs, queues, tags)) :
    t.loads = l ∧ t.classRec = recs ∧ t.queues = queues ∧ t.tags = tags := by
  simpa only [loadedPart, Prod.mk.injEq] using h

theorem LoadsSettled.of_live {s t : State} (h : LoadsSettled s) (hl : t.loads = s.loads) (hr : t.classRec = s.classRec)
    (hlive : liveDescriptors t = liveDescriptors s) : LoadsSettled t := by
  constructor
  · rw [hl, hr, hlive]
    exact h.fit
  · rw [hl]
    exact h.within

theorem LoadsSettled.congr {s t : State} (h : LoadsSettled s) (he : loadedPart t = loadedPart s) : LoadsSettled t := by
  obtain ⟨loads, classRec, queues, tags⟩ := loadedPart_eq he
  exact h.of_live loads classRec (liveDescriptors_congr queues tags)

theorem loadsSettled_ignoresInterface : IgnoresInterface LoadsSettled := fun _ _ _ _ _ _ h => h.congr rfl

/-- With nothing live the load quantities of the reset state hold (R66). -/
theorem LoadsSettled.cleared {s : State} (hlive : liveDescriptors s = []) (hl : s.loads = State.reset.loads)
    (hr : s.classRec = State.reset.classRec) : LoadsSettled s := by
  have reset : LoadsSettled State.reset := (loadsSettled_iff _).2 ⟨loadsAgree_reset, Nat.zero_le _, Nat.zero_le _⟩
  exact reset.of_live hl hr (hlive.trans liveDescriptors_reset.symm)

/-- A freeing of descriptors that leave their places keeps the load quantities (R63). -/
theorem LoadsSettled.freed {s t : State} {ds : List Descriptor} (h : LoadsSettled s)
    (hl : t.loads = s.loads.free s.classRec ds) (hr : t.classRec = s.classRec)
    (hlive : (liveDescriptors s).Perm (ds ++ liveDescriptors t)) : LoadsSettled t := by
  constructor
  · rw [hl, hr]
    exact (h.fit.perm hlive).free
  · rw [hl]
    exact h.within.free s.classRec ds

/-- An admission that step 1 of the decision has let through keeps the load quantities (R72, R82). -/
theorem admitRequest_loadsSettled {s : State} (p : Fin 6) {r : Request} (x : Treatment) (h : LoadsSettled s)
    (hroom : poolFull s.loads r.beats = false) : LoadsSettled (admitRequest s p r x) where
  fit := (h.fit.add (newDescriptor p r x)).perm
    (liveDescriptors_enqueue (admitRequest_queues s p r x) (admitRequest_tags s p r x))
  within := h.within.add hroom s.classRec p x.cls

/-! ### The ENFORCE decision -/

theorem sharedFull_iff (s : State) (k : Fin 8) (n : Nat) :
    sharedFull s k n = true ↔
      ¬s.loads.sharedLoad + ((s.loads.occ[k] + n - s.classRec[k].res) - (s.loads.occ[k] - s.classRec[k].res)) ≤
        s.loads.sharedCapacity := by
  rw [sharedFull, decide_eq_true_eq, not_le]
  rfl

section Decision
variable {s : State} {n : Nat} {k : Fin 8} {c : Colour}

theorem enforceDecision_full (p : Fin 6) (k : Fin 8) (c : Colour) (critical : Bool) (h : poolFull s.loads n = true) :
    enforceDecision s p n k c critical = (.refuse .pool, s.lottery) := by
  simp only [enforceDecision, h, if_true]

theorem enforceDecision_critical (p : Fin 6) (k : Fin 8) (c : Colour) (h : poolFull s.loads n = false) :
    enforceDecision s p n k c true = (if sharedFull s k n then .refuse .pool else .accept, s.lottery) := by
  simp only [enforceDecision, h, Bool.false_eq_true, if_false, if_true]
  split <;> rfl

theorem enforceDecision_reserved (p : Fin 6) (h : poolFull s.loads n = false)
    (hres : c = .green ∧ s.loads.occ[k] + n ≤ s.classRec[k].res) :
    enforceDecision s p n k c false = (.accept, s.lottery) := by
  simp only [enforceDecision, h, Bool.false_eq_true, if_false, if_pos hres]

/-- Past the reserved area the port limit, the shared area and the thresholds decide, in this order (R75 to R77). -/
theorem enforceDecision_unreserved (p : Fin 6) (h : poolFull s.loads n = false)
    (hres : ¬(c = .green ∧ s.loads.occ[k] + n ≤ s.classRec[k].res)) :
    enforceDecision s p n k c false =
      if s.portRec[p].limit < s.loads.portLoad[p] + n then (.refuse .portLimit, s.lottery)
      else if sharedFull s k n then (.refuse .pool, s.lottery) else thresholdStep s k c := by
  simp only [enforceDecision, h, Bool.false_eq_true, if_false, if_neg hres]

theorem enforceDecision_accept_room {p : Fin 6} {critical : Bool}
    (h : (enforceDecision s p n k c critical).1 = .accept) : poolFull s.loads n = false := by
  by_contra hfull
  rw [enforceDecision_full p k c critical (Bool.of_not_eq_false hfull)] at h
  cases h

end Decision

/-- Settles O16: step by step, each on what the steps before it have left. -/
theorem enforceDecisionOrder : Obligations.EnforceDecisionOrder := by
  intro s p n k c crit full x room reserved overLimit
  have roomIn (h : ¬full) : poolFull s.loads n = false := by
    rwa [← Bool.not_eq_true, poolFull_iff]
  have sharedFree (h : room) : sharedFull s k n = false := by
    rw [← Bool.not_eq_true, sharedFull_iff, not_not]
    exact h
  refine ⟨fun h => ?_, fun h hcrit hroom => ?_, fun h hcrit hroom => ?_, fun h hcrit hres => ?_,
    fun h hcrit hres hover => ?_, fun h hcrit hres hover hroom => ?_, fun h hcrit hres hover hroom => ?_⟩
  · exact enforceDecision_full p k c crit ((poolFull_iff _ _).2 h)
  · rw [hcrit, enforceDecision_critical p k c (roomIn h), sharedFree hroom]
    rfl
  · rw [hcrit, enforceDecision_critical p k c (roomIn h), (sharedFull_iff s k n).2 hroom]
    rfl
  · rw [hcrit, enforceDecision_reserved p (roomIn h) hres]
  · rw [hcrit, enforceDecision_unreserved p (roomIn h) hres, if_pos hover]
  · rw [hcrit, enforceDecision_unreserved p (roomIn h) hres, if_neg hover, if_pos ((sharedFull_iff s k n).2 hroom)]
  · rw [hcrit, enforceDecision_unreserved p (roomIn h) hres, if_neg hover, sharedFree hroom]
    rfl

/-! ### The thresholds and the draw -/

section Levels
variable {t : Pair} {fill : Nat} (g : GlobalRecord)

theorem levelOf_below (h : fill < t.min) : levelOf g t fill = .pass := by simp only [levelOf, h, if_true]

theorem levelOf_reject (hmin : t.min ≤ fill) (h : t.max < fill ∨ t.min = t.max) : levelOf g t fill = .reject := by
  simp only [levelOf, not_lt.2 hmin, if_false, h, if_true]

theorem levelOf_band (hmin : t.min ≤ fill) (hmax : fill ≤ t.max) (hband : t.min < t.max) :
    levelOf g t fill =
      if fill ≤ t.min + (t.max - t.min) / 2 then .band g.lotLower else .band g.lotUpper := by
  have inBand : ¬(t.max < fill ∨ t.min = t.max) := by omega
  simp only [levelOf, not_lt.2 hmin, inBand, if_false]

end Levels

/-- The value of a draw, as a number: the low 8 bits (R79). -/
theorem drawValue_eq (v : BitVec 16) : drawValue v = v.toNat % 256 := BitVec.toNat_setWidth 8 v

theorem codeBound_eq (code : Fin 4) : codeBound code = [32, 64, 128, 192].getD code.val 0 := by
  revert code
  decide

/-- The levels are those of step 6: the class level, then the global one (R77). -/
def LevelsAre (s : State) (k : Fin 8) (c : Colour) (lc lg : Level) : Prop :=
  levelOf s.glob (s.classRec[k].thr.pick c) s.loads.occ[k] = lc ∧
    levelOf s.glob (s.glob.thr.pick c) s.loads.sharedLoad = lg

section Thresholds
variable {s : State} {k : Fin 8} {c : Colour} {lc lg : Level}

theorem thresholdStep_rejects (h : LevelsAre s k c lc lg) (hrej : lc = .reject ∨ lg = .reject) :
    thresholdStep s k c = (.refuse .threshold, s.lottery) := by
  obtain ⟨rfl, rfl⟩ := h
  simp only [thresholdStep, hrej, if_true]

theorem thresholdStep_passes (h : LevelsAre s k c .pass .pass) : thresholdStep s k c = (.accept, s.lottery) := by
  obtain ⟨hlc, hlg⟩ := h
  simp only [thresholdStep, hlc, hlg, drawCode, reduceCtorEq, or_self, if_false]

/-- Where the levels ask for a code and none rejects, one draw decides (R78, R79). -/
theorem thresholdStep_draws {code : Fin 4} (h : LevelsAre s k c lc lg) (hrej : ¬(lc = .reject ∨ lg = .reject))
    (hcode : drawCode lc lg = some code) :
    thresholdStep s k c =
      (if (lotteryShift s.lottery).toNat % 256 < [32, 64, 128, 192].getD code.val 0 then .refuse .lottery else .accept,
        lotteryShift s.lottery) := by
  obtain ⟨rfl, rfl⟩ := h
  simp only [thresholdStep, hrej, if_false, hcode, drawValue_eq, codeBound_eq]
  split <;> rfl

end Thresholds

/-- Settles O17: a level by where the fill lies, and the step by the pair of levels. -/
theorem thresholdLevels : Obligations.ThresholdLevels := by
  refine ⟨fun g t fill hle => ?_, fun s k c => ?_⟩
  · refine ⟨levelOf_below g, fun h => levelOf_reject g (by omega) (.inl h),
      fun hsame hfill => levelOf_reject g (by omega) (.inr hsame), fun hband hmin hmax hlow => ?_,
      fun hband hmin hmax hhigh => ?_⟩
    · rw [levelOf_band g hmin hmax hband, if_pos hlow]
    · rw [levelOf_band g hmin hmax hband, if_neg (not_le.2 hhigh)]
  · refine ⟨thresholdStep_rejects ⟨rfl, rfl⟩, fun hlc hlg => thresholdStep_passes ⟨hlc, hlg⟩, fun a hlc hlg => ?_,
      fun b hlc hlg => ?_, fun a b hlc hlg => ?_⟩
    · exact thresholdStep_draws ⟨hlc, hlg⟩ (by simp) rfl
    · exact thresholdStep_draws ⟨hlc, hlg⟩ (by simp) rfl
    · exact thresholdStep_draws ⟨hlc, hlg⟩ (by simp) (congrArg some (max_def a b))

/-- The feedback bit as R79 writes it, bit after bit. -/
theorem lotteryShift_feedback (v : BitVec 16) :
    (lotteryShift v).getLsbD 0 = (((v.getLsbD 15 ^^ v.getLsbD 13) ^^ v.getLsbD 12) ^^ v.getLsbD 10) := by
  rw [lotteryShift_getLsbD_zero, Bool.xor_assoc (v.getLsbD 15 ^^ v.getLsbD 13)]

/-- Settles O18: the bits of one shift, and the six values by computation. -/
theorem lotteryRegisterShift : Obligations.LotteryRegisterShift :=
  ⟨fun v => ⟨lotteryShift_feedback v, fun _ hi => lotteryShift_getLsbD_succ v hi, lotteryShift_ne_zero⟩, by decide⟩

/-! ### What a take does to the load quantities -/

@[simp] theorem loadedPart_noteHold (s t : State) : loadedPart (noteHold s t) = loadedPart t := rfl
@[simp] theorem loadedPart_count (s : State) (g : Fin 24) (c : Counter) (n : Nat) :
    loadedPart (count s g c n) = loadedPart s := rfl

theorem loadedPart_capture (s : State) (p : Fin 6) (r : Request) (res : Resolution) (c : Option Colour)
    (o : TakeOutcome) : loadedPart (capture s p r res c o) = loadedPart s := by
  unfold capture
  split <;> rfl

theorem loadedPart_countRed (s : State) (g : Fin 24) (c : Colour) : loadedPart (countRed s g c) = loadedPart s := by
  unfold countRed
  split <;> rfl

theorem loadedPart_admitRequest_congr {s u : State} (h : loadedPart u = loadedPart s) (p : Fin 6) (r : Request)
    (x : Treatment) : loadedPart (admitRequest u p r x) = loadedPart (admitRequest s p r x) := by
  obtain ⟨loads, classRec, queues, tags⟩ := loadedPart_eq h
  simp only [loadedPart, admitRequest, loads, classRec, queues, tags]

/-- From `s` to `t` the load quantities and descriptors stay, or one admission for which there is room changes them. -/
def AdmitsWithRoom (p : Fin 6) (r : Request) (s t : State) : Prop :=
  loadedPart t = loadedPart s ∨
    poolFull s.loads r.beats = false ∧ ∃ x, loadedPart t = loadedPart (admitRequest s p r x)

theorem AdmitsWithRoom.loadsSettled {p : Fin 6} {r : Request} {s t : State} (ht : AdmitsWithRoom p r s t)
    (h : LoadsSettled s) : LoadsSettled t := by
  rcases ht with same | ⟨hroom, x, admitted⟩
  · exact h.congr same
  · exact (admitRequest_loadsSettled p x h hroom).congr admitted

theorem takeBypass_admitsWithRoom (s : State) (p : Fin 6) (r : Request) : AdmitsWithRoom p r s (takeBypass s p r) := by
  cases hfull : poolFull s.loads r.beats with
  | true =>
    rw [takeBypass_full p hfull]
    exact .inl rfl
  | false =>
    rw [takeBypass_room p hfull]
    exact .inr ⟨hfull, bypassTreatment s p, rfl⟩

theorem takeMetered_admitsWithRoom (s : State) (p : Fin 6) (r : Request) (res : Resolution) :
    AdmitsWithRoom p r s (takeMetered s p r res) := by
  have marked := loadedPart_countRed s res.group (colourAt s p r res.meter)
  simp only [takeMetered]
  split
  · exact .inl ((loadedPart_capture _ p r res _ _).trans marked)
  · rename_i haccept
    exact .inr ⟨enforceDecision_accept_room haccept, _,
      (loadedPart_capture _ p r res _ _).trans (loadedPart_admitRequest_congr marked p r _)⟩

theorem takeEnforce_admitsWithRoom (s : State) (p : Fin 6) (r : Request) :
    AdmitsWithRoom p r s (takeEnforce s p r) := by
  simp only [takeEnforce]
  split
  · exact .inl (loadedPart_capture _ p r _ _ _)
  · exact takeMetered_admitsWithRoom s p r _

theorem takeRequest_admitsWithRoom (s : State) (p : Fin 6) (r : Request) :
    AdmitsWithRoom p r (acceptRequest s p) (takeRequest s p r) := by
  simp only [AdmitsWithRoom, takeRequest, loadedPart_noteHold]
  split
  · exact .inl rfl
  · split
    · exact takeBypass_admitsWithRoom _ p r
    · exact takeEnforce_admitsWithRoom _ p r

theorem takeEvent_loadsSettled {s : State} (h : LoadsSettled s) : LoadsSettled (takeEvent s) := by
  unfold takeEvent
  split
  · exact h
  · split
    · exact h
    · rename_i p _ _ r _
      have accepted : LoadsSettled (acceptRequest s p) := h.congr rfl
      exact (takeRequest_admitsWithRoom s p r).loadsSettled accepted

/-! ### What the memory port, ticks and resets do to the load quantities -/

theorem issueEvent_loadsSettled {s : State} (h : LoadsSettled s) : LoadsSettled (issueEvent s) := by
  rcases issueEvent_cases s with he | ⟨k, sc, τ, d, rest, hd, hf, he⟩
  · rwa [he]
  · rw [he]
    obtain ⟨others, before, after⟩ := liveDescriptors_move (d' := issuedUnder d τ) hd (TagState.bound_of_isFree hf)
      (issueHead_queues s k sc τ d rest) (issueHead_tags s k sc τ d rest)
    exact ⟨((h.fit.perm before).relabel (e := issuedUnder d τ) rfl rfl rfl).perm after, h.within⟩

/-- What a freeing and what it hands on leave of the load quantities and descriptors (R63). -/
theorem loadedPart_freed (s : State) (ds : List Descriptor) :
    loadedPart (handOn (freeDescriptors s ds) ds) = (s.loads.free s.classRec ds, s.classRec, s.queues, s.tags) := rfl

theorem loadedPart_completeOkay (s : State) (τ : Fin 32) (d : Descriptor) (data : List Beat) :
    loadedPart (completeOkay s τ d data) = (s.loads.free s.classRec [d], s.classRec, s.queues, s.tags.set τ .free) := by
  simp only [completeOkay, loadedPart_freed, respond_loads, respond_classRec, respond_queues, respond_tags]

theorem loadedPart_completeError (s : State) (τ : Fin 32) (d : Descriptor) :
    loadedPart (completeError s τ d) = (s.loads.free s.classRec [d], s.classRec, s.queues, s.tags.set τ .free) := by
  simp only [completeError, State.raise, loadedPart_freed, raiseIf_loads, raiseIf_classRec, raiseIf_queues, raiseIf_tags,
    count_loads, count_classRec, count_queues, count_tags, respond_loads, respond_classRec, respond_queues, respond_tags]

/-- The descriptor of a BUSY tag is freed, and its tag becomes FREE (R63, R125, R127). -/
theorem LoadsSettled.completed {s t : State} {τ : Fin 32} {d : Descriptor} (h : LoadsSettled s) (hb : s.tags[τ] = .busy d)
    (he : loadedPart t = (s.loads.free s.classRec [d], s.classRec, s.queues, s.tags.set τ .free)) : LoadsSettled t := by
  obtain ⟨loads, classRec, queues, tags⟩ := loadedPart_eq he
  exact h.freed loads classRec (liveDescriptors_release (TagState.bound_eq_some.2 hb) queues tags)

/-- A tag that binds what it has bound leaves the live descriptors (R128, R137). -/
theorem liveDescriptors_of_bound {s t : State} (hq : t.queues = s.queues)
    (ht : ∀ τ : Fin 32, t.tags[τ].bound = s.tags[τ].bound) : liveDescriptors t = liveDescriptors s := by
  simp only [liveDescriptors, queuedDescriptors, issuedDescriptors, hq, ht]

theorem completionEvent_loadsSettled {s : State} (τ : Fin 32) (status : MemStatus) (data : List Beat)
    (h : LoadsSettled s) : LoadsSettled (completionEvent τ status data s) := by
  refine LoadsSettled.congr ?_ (loadedPart_noteHold s _)
  cases hτ : s.tags[τ] with
  | free => exact h.congr rfl
  | busy d =>
    cases status with
    | okay => exact h.completed hτ (loadedPart_completeOkay s τ d data)
    | error => exact h.completed hτ (loadedPart_completeError s τ d)
  | orphan o =>
    refine h.of_live rfl rfl (liveDescriptors_of_bound rfl fun τ' => ?_)
    rw [getElem_set_fin]
    split
    · rw [← ‹τ = τ'›, hτ]
      rfl
    · rfl

theorem loadedPart_countEach (s : State) (gs : List (Fin 24)) (c : Counter) :
    loadedPart (countEach s gs c) = loadedPart s := by
  induction gs generalizing s with
  | nil => rfl
  | cons g gs ih => exact (ih (count s g c 1)).trans (loadedPart_count s g c 1)

/-- What an event's expiries leave of the load quantities and descriptors (R63, R116, R131, R132). -/
theorem loadedPart_expireAll (s : State) :
    loadedPart (expireAll s) =
      (s.loads.free s.classRec (expiring s), s.classRec, (dropExpired s).queues, (dropExpired s).tags) := by
  obtain ⟨loads, classRec, queues, tags⟩ := loadedPart_eq
    (loadedPart_countEach (respondAll (dropExpired s) (expiring s) (.fault .expired))
      ((expiring s).map Descriptor.group) .faulted)
  simp only [expireAll, loadedPart_freed, raiseIf_loads, raiseIf_classRec, raiseIf_queues, raiseIf_tags, loads, classRec,
    queues, tags, respondAll_loads, respondAll_classRec, respondAll_queues, respondAll_tags, dropExpired_loads,
    dropExpired_classRec]

theorem expireAll_loadsSettled {s : State} (h : LoadsSettled s) : LoadsSettled (expireAll s) := by
  obtain ⟨loads, classRec, queues, tags⟩ := loadedPart_eq (loadedPart_expireAll s)
  have live := (liveDescriptors_congr queues tags).trans (liveDescriptors_dropExpired s)
  have split : (liveDescriptors s).Perm (expiring s ++ liveDescriptors (expireAll s)) :=
    live ▸ (List.filter_append_perm Descriptor.ranOut (liveDescriptors s)).symm
  exact h.freed loads classRec split

theorem expiryEvent_loadsSettled {s : State} (h : LoadsSettled s) : LoadsSettled (expiryEvent s) :=
  (expireAll_loadsSettled h).congr (loadedPart_noteHold _ _)

/-- The count is no part of a descriptor's class, port or beats. -/
theorem countDownAll_loadsSettled {s : State} (h : LoadsSettled s) : LoadsSettled (countDownAll s) where
  fit := by
    rw [liveDescriptors_countDownAll]
    exact h.fit.map countDown_cls countDown_port countDown_beats
  within := h.within

theorem tickEvent_loadsSettled {s : State} (h : LoadsSettled s) : LoadsSettled (tickEvent s) := by
  have refilled : LoadsSettled (refillMeters { s with tickCounter := 0 }) := h.congr rfl
  exact (expireAll_loadsSettled (countDownAll_loadsSettled refilled)).congr (loadedPart_noteHold _ _)

theorem refclkPeriod_loadsSettled {s : State} (h : LoadsSettled s) : LoadsSettled (refclkPeriod s) := by
  unfold refclkPeriod
  split
  · split
    · exact tickEvent_loadsSettled (h.congr rfl)
    · exact h.congr rfl
  · exact h.congr rfl

theorem inReset_loadsSettled (s : State) (ph : Phase) (cause : ResetCause) (high : Bool) :
    LoadsSettled (inReset s ph cause high) := by
  have live : liveDescriptors (inReset s ph cause high) = liveDescriptors State.reset := liveDescriptors_congr rfl rfl
  exact .cleared (live.trans liveDescriptors_reset) rfl rfl

theorem governorReset_loadsSettled (s : State) (strap : Bool) : LoadsSettled (governorReset s strap) := by
  have bound (τ : Fin 32) : (governorReset s strap).tags[τ].bound = State.reset.tags[τ].bound := by
    have unbound : (governorReset s strap).tags[τ].bound = none := by simp [governorReset]
    rw [unbound, reset_tags]
    rfl
  have live : liveDescriptors (governorReset s strap) = liveDescriptors State.reset := liveDescriptors_of_bound rfl bound
  exact .cleared (live.trans liveDescriptors_reset) rfl rfl

theorem lineResetEvent_loadsSettled {s : State} (h : LoadsSettled s) : LoadsSettled (lineResetEvent s) := by
  unfold lineResetEvent
  split
  · exact inReset_loadsSettled _ _ _ _
  · exact h.congr rfl
  · exact h.congr rfl

theorem endOfResetEvent_loadsSettled {s : State} (e : ResetEnd) (h : LoadsSettled s) :
    LoadsSettled (endOfResetEvent s e) := by
  unfold endOfResetEvent
  split
  · exact h.congr rfl
  · split
    · exact h.congr rfl
    · exact h.congr rfl
  · split
    · exact h.congr rfl
    · exact h.congr rfl

/-! ### What the frames' commands do to the load quantities -/

theorem reclaimAct_loadsSettled {s : State} (h : LoadsSettled s) : LoadsSettled (reclaimAct s).1 :=
  h.of_live (by simp only [reclaimAct]) (by simp only [reclaimAct])
    (liveDescriptors_of_bound (by simp only [reclaimAct]) fun τ => by simp [reclaimAct])

theorem writeClassEntry_loadsSettled {s : State} (b : Byte) (d : List Byte) (h : LoadsSettled s) :
    LoadsSettled (writeClassEntry b d s).1 := by
  unfold writeClassEntry
  split
  · exact h
  · split
    · exact ⟨h.fit.recompute _, h.within⟩
    · exact h

theorem loadedPart_popEnd (o : Snapshot) (s : State) : loadedPart (popEnd o s).1 = loadedPart s := by
  unfold popEnd
  split <;> rfl

theorem loadedPart_clearGroupAct (f : FrameBits) (s : State) : loadedPart (clearGroupAct f s).1 = loadedPart s := by
  unfold clearGroupAct
  split <;> rfl

theorem loadedPart_clearEventsAct (f : FrameBits) (s : State) : loadedPart (clearEventsAct f s).1 = loadedPart s := by
  unfold clearEventsAct
  split
  · simp only [loadedPart]
  · rfl

theorem loadedPart_drainAct (s : State) : loadedPart (drainAct s).1 = loadedPart s := by
  unfold drainAct
  split <;> rfl

theorem loadedPart_setModeAct (f : FrameBits) (s : State) : loadedPart (setModeAct f s).1 = loadedPart s := by
  unfold setModeAct
  split
  · rfl
  · split
    · rw [apply_ite loadedPart]
      exact ite_self (loadedPart s)
    · rfl

theorem loadedPart_setSeedAct (f : FrameBits) (s : State) : loadedPart (setSeedAct f s).1 = loadedPart s := by
  unfold setSeedAct
  split
  · rfl
  · simp only [loadedPart]

theorem loadedPart_writeGlobalEntry (b : Byte) (d : List Byte) (s : State) :
    loadedPart (writeGlobalEntry b d s).1 = loadedPart s := by
  unfold writeGlobalEntry
  split <;> rfl

theorem loadedPart_writePortEntry (b : Byte) (d : List Byte) (s : State) :
    loadedPart (writePortEntry b d s).1 = loadedPart s := by
  unfold writePortEntry
  split
  · rfl
  · split <;> rfl

theorem loadedPart_writeMeterEntry (b : Byte) (d : List Byte) (s : State) :
    loadedPart (writeMeterEntry b d s).1 = loadedPart s := by
  unfold writeMeterEntry
  split
  · rfl
  · split <;> rfl

theorem loadedPart_writeRuleHalf (ok : Bool) (half : Rule → Rule) (b : Byte) (s : State) :
    loadedPart (writeRuleHalf ok half b s).1 = loadedPart s := by
  unfold writeRuleHalf
  split
  · rfl
  · split <;> rfl

theorem loadedPart_writePatternEntry (b : Byte) (d : List Byte) (s : State) :
    loadedPart (writePatternEntry b d s).1 = loadedPart s := writePatternEntry_eq b d s ▸ loadedPart_writeRuleHalf _ _ b s

theorem loadedPart_writeActionEntry (b : Byte) (d : List Byte) (s : State) :
    loadedPart (writeActionEntry b d s).1 = loadedPart s := writeActionEntry_eq b d s ▸ loadedPart_writeRuleHalf _ _ b s

theorem loadedPart_writeMaskEntry (b : Byte) (d : List Byte) (s : State) :
    loadedPart (writeMaskEntry b d s).1 = loadedPart s := by
  unfold writeMaskEntry
  split <;> rfl

/-! ### Every step keeps the load quantities -/

/-- Every command keeps the load quantities. -/
theorem exec_loadsSettled (c : Instr) {s : State} (h : LoadsSettled s) : NextHas LoadsSettled (exec c s) := by
  have blind := loadsSettled_ignoresInterface
  cases c with
  | requestPresented p r => exact nextHas_next (h.congr rfl)
  | take => exact whileRunning_keeps blind takeEvent_loadsSettled h
  | issue ready => exact whileRunning_keeps blind issueEvent_loadsSettled (h.congr rfl : LoadsSettled (withReady s ready))
  | completion τ status data => exact whileRunning_keeps blind (completionEvent_loadsSettled τ status data) h
  | tick => exact whileRunning_keeps blind tickEvent_loadsSettled h
  | expiry => exact whileRunning_keeps blind expiryEvent_loadsSettled h
  | quiesceChange e =>
    exact whileRunning_keeps blind (fun hu => hu.congr rfl) (h.congr rfl : LoadsSettled (withQuiesce s e))
  | powerOnReset => exact nextHas_next (inReset_loadsSettled _ _ _ _)
  | lineReset => exact nextHas_next (lineResetEvent_loadsSettled h)
  | readEntry m t f => exact readFrame_keeps blind m f _ _ _ (fun _ _ hu => hu) h
  | writeEntry t f => exact tableFrame_keeps blind t.table f (act := fun _ _ => refuseWrite) (fun _ _ _ hu => hu) h
  | writeGlobal f =>
    exact tableFrame_keeps blind .global f (fun b d _ hu => hu.congr (loadedPart_writeGlobalEntry b d _)) h
  | writePort f => exact tableFrame_keeps blind .port f (fun b d _ hu => hu.congr (loadedPart_writePortEntry b d _)) h
  | writeClass f => exact tableFrame_keeps blind .cls f (fun b d _ => writeClassEntry_loadsSettled b d) h
  | writeMeter f => exact tableFrame_keeps blind .meter f (fun b d _ hu => hu.congr (loadedPart_writeMeterEntry b d _)) h
  | meterLoad f => exact tableFrame_keeps blind .meter f (fun b d _ hu => hu.congr (loadedPart_writeMeterEntry b d _)) h
  | writeRulePattern f =>
    exact tableFrame_keeps blind .rulePattern f (fun b d _ hu => hu.congr (loadedPart_writePatternEntry b d _)) h
  | writeRuleAction f =>
    exact tableFrame_keeps blind .ruleAction f (fun b d _ hu => hu.congr (loadedPart_writeActionEntry b d _)) h
  | writeEventMask f =>
    exact tableFrame_keeps blind .eventMask f (fun b d _ hu => hu.congr (loadedPart_writeMaskEntry b d _)) h
  | popCapture m f => exact readFrame_keeps blind m f _ _ _ (fun o _ hu => hu.congr (loadedPart_popEnd o _)) h
  | swapBanks f => exact commandFrame_keeps blind .swapBanks f (fun hu => hu.congr rfl) h
  | clearGroup f => exact commandFrame_keeps blind .clearGroup f (fun hu => hu.congr (loadedPart_clearGroupAct f _)) h
  | clearAllCounters f => exact commandFrame_keeps blind .clearAllCounters f (fun hu => hu.congr rfl) h
  | clearEvents f =>
    exact commandFrame_keeps blind .clearEvents f (fun hu => hu.congr (loadedPart_clearEventsAct f _)) h
  | clearCause f => exact commandFrame_keeps blind .clearCause f (fun hu => hu.congr rfl) h
  | drain f => exact commandFrame_keeps blind .drain f (fun hu => hu.congr (loadedPart_drainAct _)) h
  | release f => exact commandFrame_keeps blind .release f (fun hu => hu.congr rfl) h
  | setMode f => exact commandFrame_keeps blind .setMode f (fun hu => hu.congr (loadedPart_setModeAct f _)) h
  | setSeed f => exact commandFrame_keeps blind .setSeed f (fun hu => hu.congr (loadedPart_setSeedAct f _)) h
  | reclaimTags f => exact commandFrame_keeps blind .reclaimTags f reclaimAct_loadsSettled h
  | governorReset strap f =>
    exact commandFrame_keeps (act := fun t => (governorReset t strap, .done)) blind .governorReset f
      (fun _ => governorReset_loadsSettled _ strap) h
  | badFrame f => exact nextHas_next (badFrameEvent_keeps blind f h)
  | endOfReset e => exact nextHas_next (endOfResetEvent_loadsSettled e h)
  | csNHighAfterReset => exact whileRunning_keeps blind (fun hu => hu.congr rfl) h

theorem step_loadsSettled {s : State} (h : LoadsSettled s) : NextHas LoadsSettled (step s) := by
  cases hp : s.pending with
  | nil => exact step_nil hp ▸ nextHas_next (refclkPeriod_loadsSettled h)
  | cons c rest => exact step_cons hp ▸ exec_loadsSettled c (loadsSettled_ignoresInterface.withPending rest h)

/-- Settles O56: by the command or the REFCLK period the step runs. -/
theorem loadsKept : Obligations.LoadsKept := by
  intro s t agree bounded hstep
  exact (loadsSettled_iff t).1 (step_loadsSettled ((loadsSettled_iff s).2 ⟨agree, bounded⟩) t hstep)

/-! ### Completions that free a descriptor -/

/-- A drain ends where it is complete (R95). -/
theorem opStateAfterFreeing_eq (s : State) :
    (if drainComplete s then .drained else s.drain.opState) =
      opStateAfterFreeing s.drain.opState s.loads.liveCount := by
  simp only [drainComplete, opStateAfterFreeing, Bool.and_eq_true, beq_iff_eq, decide_eq_true_eq]

/-- DRAIN_DONE is raised exactly where the operating state moves (R95). -/
theorem drainComplete_eq (s : State) :
    drainComplete s = decide (s.drain.opState ≠ opStateAfterFreeing s.drain.opState s.loads.liveCount) := by
  rw [← opStateAfterFreeing_eq]
  cases hc : drainComplete s with
  | false => simp
  | true =>
    simp only [drainComplete, Bool.and_eq_true, beq_iff_eq] at hc
    simp [hc.1]

/-- The state after the descriptors `ds` of one event have been freed and what that hands on has been done, with HOLD_CHANGE (R63,
R90, R91, R95). -/
def afterFreeing (s : State) (ds : List Descriptor) : State :=
  let loads := s.loads.free s.classRec ds
  let hold := holdAfterFreeing s ds
  let op := opStateAfterFreeing s.drain.opState loads.liveCount
  { s with
    loads := loads
    writeStore := storeAfterFreeing s ds
    ports := portsAfterFreeing s ds
    hold := hold
    drain := { s.drain with opState := op }
    events := { s.events with
      sticky := stickyWith (stickyWith s.events.sticky (decide (s.drain.opState ≠ op)) .drainDone) (heldMoves s hold)
        .holdChange } }

theorem heldPorts_congr {s t : State} (hhold : t.hold = s.hold) (hrec : t.portRec = s.portRec) :
    heldPorts t = heldPorts s := by
  simp only [heldPorts, funext fun p => (by simp only [held, hhold, hrec] : held t p = held s p)]

/-- What a freeing hands on and its note of HOLD_CHANGE, where the ports were HELD before as in the state that frees. -/
theorem noteHold_freed {before s : State} (ds : List Descriptor) (hhold : before.hold = s.hold)
    (hrec : before.portRec = s.portRec) : noteHold before (handOn (freeDescriptors s ds) ds) = afterFreeing s ds := by
  rw [noteHold, heldPorts_congr hhold hrec, handOn, endDrain, opStateAfterFreeing_eq, drainComplete_eq]
  rfl

/-- A freeing looks past the tags, the reports and the output channels, and leaves them but for the two events. -/
theorem afterFreeing_answered (s : State) (ds : List Descriptor) (tags : Vector TagState 32) (counters : CounterBank)
    (events : EventUnit) (out : Outputs) :
    afterFreeing { s with tags := tags, counters := counters, events := events, out := out } ds =
      { afterFreeing s ds with
        tags := tags
        counters := counters
        out := out
        events := { events with
          sticky := stickyWith (stickyWith events.sticky (decide (s.drain.opState ≠ (afterFreeing s ds).drain.opState))
            .drainDone) (heldMoves s (holdAfterFreeing s ds)) .holdChange } } := rfl

theorem exec_completion {s : State} (hrun : s.phase = .running) (t : Fin 32) (st : MemStatus) (data : List Beat) :
    exec (.completion t st data) s = .next (completionEvent t st data s.quiet) :=
  whileRunning_running (completionEvent t st data) hrun

/-- The only response of an event, on the channels as they are during it (R8, R9). -/
theorem respond_quiet_out (s : State) (p : Fin 6) (r : Response) :
    (respond s.quiet p r).out = { s.quietOut with responses := Outputs.quiet.responses.set p [r] } := by
  rw [respond_out, quiet_out, quiet_responses, List.nil_append]
  rfl

/-- The state that frees at an OKAY completion: the answer stands, and the tag is FREE (R122, R125). -/
def okayAnswered (s : State) (t : Fin 32) (d : Descriptor) (data : List Beat) : State :=
  { s with
    tags := s.tags.set t .free
    out := { s.quietOut with
      responses := Outputs.quiet.responses.set d.port [⟨d.tag, .okay, readDataFor d data⟩] } }

/-- The state that frees at an ERROR completion: the answer and the reports stand, and the tag is FREE (R122, R127). -/
def errorAnswered (s : State) (t : Fin 32) (d : Descriptor) : State :=
  let u := count s d.group .faulted 1
  { s with
    tags := s.tags.set t .free
    counters := u.counters
    events := { u.events with sticky := u.events.sticky ||| Sticky.memoryError.bit }
    out := { s.quietOut with
      responses := Outputs.quiet.responses.set d.port [⟨d.tag, .fault .memory, none⟩] } }

theorem completeOkay_eq (s : State) (t : Fin 32) (d : Descriptor) (data : List Beat) :
    completeOkay s.quiet t d data = handOn (freeDescriptors (okayAnswered s t d data) [d]) [d] := by
  rw [okayAnswered, ← respond_quiet_out]
  rfl

/-- A count looks past the output channels, and leaves them. -/
theorem count_respond_quiet (s : State) (p : Fin 6) (r : Response) (g : Fin 24) (c : Counter) (n : Nat) :
    count (respond s.quiet p r) g c n =
      { count s g c n with out := { s.quietOut with responses := Outputs.quiet.responses.set p [r] } } := by
  rw [← respond_quiet_out]
  rfl

theorem completeError_eq (s : State) (t : Fin 32) (d : Descriptor) :
    completeError s.quiet t d = handOn (freeDescriptors (errorAnswered s t d) [d]) [d] := by
  rw [completeError, count_respond_quiet]
  rfl

theorem completionEvent_okay {s : State} {t : Fin 32} {d : Descriptor} (data : List Beat) (hb : s.tags[t] = .busy d) :
    completionEvent t .okay data s.quiet = afterFreeing (okayAnswered s t d data) [d] := by
  simp only [completionEvent, quiet_tags, hb]
  rw [completeOkay_eq]
  exact noteHold_freed [d] rfl rfl

theorem completionEvent_error {s : State} {t : Fin 32} {d : Descriptor} (data : List Beat) (hb : s.tags[t] = .busy d) :
    completionEvent t .error data s.quiet = afterFreeing (errorAnswered s t d) [d] := by
  simp only [completionEvent, quiet_tags, hb]
  rw [completeError_eq]
  exact noteHold_freed [d] rfl rfl

theorem readDataFor_write {d : Descriptor} (data : List Beat) (h : d.kind = .write) : readDataFor d data = none := by
  simp only [readDataFor, h]

theorem readDataFor_read {d : Descriptor} (data : List Beat) (h : d.kind = .read) :
    readDataFor d data = some (fitTo 0#64 d.beats data) := by simp only [readDataFor, h]

/-- Settles O29: the answer with its data fitted to the descriptor's beats, and then the freeing. -/
theorem completionOkay : Obligations.CompletionOkay := by
  intro s t d data hrun hb
  refine ⟨_, exec_completion hrun t .okay data, ?_, readDataFor d data, ?_, readDataFor_write data, fun hread => ?_⟩
  · rw [completionEvent_okay data hb]
    rfl
  · rw [completionEvent_okay data hb]
    rfl
  · exact ⟨_, readDataFor_read data hread, fitTo_length _ _ _, fun i hi => fitTo_getD _ _ _ i hi⟩

/-- Settles O30: the answer with its reports, and then the freeing. -/
theorem completionError : Obligations.CompletionError := by
  intro s t d data hrun hb
  rw [exec_completion hrun, completionEvent_error data hb, errorAnswered, afterFreeing_answered]
  rfl

/-! ### WRITE_CLASS -/

theorem writeClassEntry_passes {d : List Byte} (s : State) (k : Fin 8) (hok : classFieldsOk d = true)
    (hsum : reservationSum (s.classRec.set k (classOf d)) ≤ 512) :
    writeClassEntry (BitVec.ofNat 8 k.val) d s = (applyClass s k (classOf d), .done) := by
  have room : reservationOk s.classRec k (numAt d 2 2) = true := (reservationOk_iff s.classRec k (classOf d)).2 hsum
  simp only [writeClassEntry, indexBelow_ofNat (by decide : 8 ≤ 256) k, hok, room, Bool.and_self, if_true]

theorem writeClassEntry_failing {d : List Byte} (s : State) (k : Fin 8)
    (h : classFieldsOk d = false ∨ 512 < reservationSum (s.classRec.set k (classOf d))) :
    writeClassEntry (BitVec.ofNat 8 k.val) d s = (s, .refused) := by
  have fails : (classFieldsOk d && reservationOk s.classRec k (numAt d 2 2)) = false := by
    rcases h with hfields | hsum
    · rw [hfields, Bool.false_and]
    · have full : reservationOk s.classRec k (numAt d 2 2) = false :=
        Bool.eq_false_of_not_eq_true fun hok => Nat.not_le.2 hsum ((reservationOk_iff s.classRec k (classOf d)).1 hok)
      rw [full, Bool.and_false]
  simp only [writeClassEntry, indexBelow_ofNat (by decide : 8 ≤ 256) k, fails, Bool.false_eq_true, if_false, refuseWrite]

theorem writeClassEntry_outOfRange {b : Byte} (d : List Byte) (s : State) (h : 8 ≤ b.toNat) :
    writeClassEntry b d s = (s, .refused) := by
  simp only [writeClassEntry, indexBelow_outOfRange h, refuseWrite]

/-- Settles O48: a passing entry ends in `applyClass`, any other leaves the state. -/
theorem writeClassFrame : Obligations.WriteClassFrame := by
  intro f s hready hend
  refine ⟨fun k hindex hok hsum => ?_, fun k hindex h => ?_, fun hrange => ?_, classOf_legal⟩
  · have passes := writeClassEntry_passes (atFrameEnd s f 2) k hok hsum
    rw [← hindex] at passes
    exact tableFrame_ends (t := .cls) hready hend passes
  · have failing := writeClassEntry_failing (atFrameEnd s f 2) k h
    rw [← hindex] at failing
    exact tableFrame_ends (t := .cls) hready hend failing
  · exact tableFrame_ends (t := .cls) hready hend (writeClassEntry_outOfRange _ _ hrange)

end Sys2Proof.Machine
end

section
/-! PROOFS. Holding and draining: what one step can do to what the Hold Monitor and the Drain Controller watch, the invariants
and the two events that follow from it (O59, O60, O21, O25), the commands of both blocks, the tick and the end of a reset. -/

namespace Sys2Proof.Machine

/-! ### What a step can do to what is held and drained -/

/-- What the Hold Monitor and the Drain Controller hold and watch, with the phase and the sticky events. -/
def controlPart (s : State) :
    Phase × Drain × HoldLatches × Loads × (GlobalRecord × Vector PortRecord 6 × Vector Meter 16) × BitVec 8 :=
  (s.phase, s.drain, s.hold, s.loads, (s.glob, s.portRec, s.meters), s.events.sticky)

/-- The events of a command that can move its control part, from a state to the next; no other command moves it. -/
inductive ControlEvent : Instr → State → State → Prop
  | take (s : State) : ControlEvent .take s (takeEvent s)
  | completion (s : State) (τ : Fin 32) (status : MemStatus) (data : List Beat) :
      ControlEvent (.completion τ status data) s (completionEvent τ status data s)
  | tick (s : State) : ControlEvent .tick s (tickEvent s)
  | expiry (s : State) : ControlEvent .expiry s (expiryEvent s)
  | quiesce (s : State) (e : Edge) : ControlEvent (.quiesceChange e) s (quiesceEvent e s)
  | powerOnReset (s : State) (cause : ResetCause) (high : Bool) :
      ControlEvent .powerOnReset s (inReset s .powerOnReset cause high)
  | lineReset (s : State) (cause : ResetCause) (high : Bool) :
      ControlEvent .lineReset s (inReset s .lineReset cause high)
  | governorReset (s : State) (strap : Bool) (f : FrameBits) :
      ControlEvent (.governorReset strap f) s (governorReset s strap)
  | leaveReset (s : State) (e : ResetEnd) (held : s.phase ≠ .running) : ControlEvent (.endOfReset e) s (leaveReset s e)
  | stayInReset (s : State) (e : ResetEnd) (held : s.phase ≠ .running) :
      ControlEvent (.endOfReset e) s { s with phase := .lineReset }
  | writeGlobal (s : State) (f : FrameBits) (r : GlobalRecord) (legal : GlobalLegal r) :
      ControlEvent (.writeGlobal f) s (applyGlobal s r)
  | writePort (s : State) (f : FrameBits) (p : Fin 6) (r : PortRecord) (legal : PortLegal r) :
      ControlEvent (.writePort f) s (applyPort s p r)
  | writeClass (s : State) (f : FrameBits) (k : Fin 8) (r : ClassRecord) :
      ControlEvent (.writeClass f) s (applyClass s k r)
  | writeMeter (s : State) (f : FrameBits) (m : Fin 16) (d : List Byte) :
      ControlEvent (.writeMeter f) s (applyMeter s m d)
  | meterLoad (s : State) (f : FrameBits) (m : Fin 16) (d : List Byte) :
      ControlEvent (.meterLoad f) s (applyMeter s m d)
  | clearEvents (s : State) (f : FrameBits) (bits : BitVec 8) :
      ControlEvent (.clearEvents f) s { s with events := { s.events with sticky := bits } }
  | drain (s : State) (f : FrameBits) : ControlEvent (.drain f) s (drainAct s).1
  | release (s : State) (f : FrameBits) : ControlEvent (.release f) s (releaseAct s).1
  | setMode (s : State) (f : FrameBits) (m : Mode) : ControlEvent (.setMode f) s (changeMode s m)

/-- A relation of two states that looks at their control parts alone, holds where nothing moves, and holds where a frame is
discarded with FRAME_ERROR. -/
structure ControlRelation (R : State → State → Prop) : Prop where
  looks   : ∀ {s s' t t' : State}, R s t → controlPart s' = controlPart s → controlPart t' = controlPart t → R s' t'
  idle    : ∀ s : State, R s s
  discard : ∀ s : State, R s (s.raise .frameError)

/-! #### Acts and events that leave the control part -/

theorem controlPart_issueEvent (s : State) : controlPart (issueEvent s) = controlPart s := by
  rcases issueEvent_cases s with same | ⟨_, _, _, _, _, -, -, issued⟩
  · rw [same]
  · rw [issued]
    rfl

theorem controlPart_popEnd (o : Snapshot) (s : State) : controlPart (popEnd o s).1 = controlPart s := by
  unfold popEnd
  split <;> rfl

theorem controlPart_clearGroupAct (f : FrameBits) (s : State) : controlPart (clearGroupAct f s).1 = controlPart s := by
  unfold clearGroupAct
  split <;> rfl

theorem controlPart_setSeedAct (f : FrameBits) (s : State) : controlPart (setSeedAct f s).1 = controlPart s := by
  by_cases h : numAt f.bytes 2 2 = 0
  · rw [setSeedAct_zero s h]
  · rw [setSeedAct_nonzero s h]
    rfl

theorem controlPart_writeRuleHalf (ok : Bool) (half : Rule → Rule) (b : Byte) (s : State) :
    controlPart (writeRuleHalf ok half b s).1 = controlPart s := by
  unfold writeRuleHalf
  split
  · rfl
  · split <;> rfl

theorem controlPart_writeMaskEntry (b : Byte) (d : List Byte) (s : State) :
    controlPart (writeMaskEntry b d s).1 = controlPart s := by
  unfold writeMaskEntry
  split <;> rfl

theorem controlPart_reclaimAct (s : State) : controlPart (reclaimAct s).1 = controlPart s := by
  simp only [controlPart, reclaimAct]

/-! #### Acts that move it or do nothing -/

theorem writeGlobalEntry_does (b : Byte) (d : List Byte) (s : State) :
    (writeGlobalEntry b d s).1 = s ∨ ∃ r, GlobalLegal r ∧ (writeGlobalEntry b d s).1 = applyGlobal s r := by
  unfold writeGlobalEntry
  split
  · exact .inr ⟨globalOf d, globalOf_legal (by tauto), rfl⟩
  · exact .inl rfl

theorem writePortEntry_does (b : Byte) (d : List Byte) (s : State) :
    (writePortEntry b d s).1 = s ∨ ∃ p r, PortLegal r ∧ (writePortEntry b d s).1 = applyPort s p r := by
  unfold writePortEntry
  split
  · exact .inl rfl
  · split
    · exact .inr ⟨_, portOf d, portOf_legal ‹_›, rfl⟩
    · exact .inl rfl

theorem writeClassEntry_does (b : Byte) (d : List Byte) (s : State) :
    (writeClassEntry b d s).1 = s ∨ ∃ k r, (writeClassEntry b d s).1 = applyClass s k r := by
  unfold writeClassEntry
  split
  · exact .inl rfl
  · split
    · exact .inr ⟨_, classOf d, rfl⟩
    · exact .inl rfl

theorem writeMeterEntry_does (b : Byte) (d : List Byte) (s : State) :
    (writeMeterEntry b d s).1 = s ∨ ∃ m, (writeMeterEntry b d s).1 = applyMeter s m d := by
  unfold writeMeterEntry
  split
  · exact .inl rfl
  · split
    · exact .inr ⟨_, rfl⟩
    · exact .inl rfl

theorem clearEventsAct_does (f : FrameBits) (s : State) :
    ∃ bits, controlPart (clearEventsAct f s).1 = controlPart { s with events := { s.events with sticky := bits } } := by
  unfold clearEventsAct
  split
  · exact ⟨s.events.sticky &&& ~~~(byteAt f.bytes 2), by simp only [controlPart]⟩
  · exact ⟨s.events.sticky, rfl⟩

theorem setModeAct_does (f : FrameBits) (s : State) :
    (setModeAct f s).1 = s ∨ ∃ m, (setModeAct f s).1 = changeMode s m := by
  unfold setModeAct
  split
  · exact .inl rfl
  · rename_i m _
    split
    · by_cases hm : m = s.drain.mode
      · exact .inl (if_pos hm)
      · exact .inr ⟨m, if_neg hm⟩
    · exact .inl rfl

section Control
variable {R : State → State → Prop} (rel : ControlRelation R)
include rel

theorem ControlRelation.same {s t : State} (h : controlPart t = controlPart s) : R s t := rel.looks (rel.idle s) rfl h

theorem whileRunning_control {s s' : State} {f : State → State} (hs : controlPart s' = controlPart s)
    (hf : ∀ u, R u (f u)) : NextHas (R s) (whileRunning s' f) := by
  refine nextHas_next ?_
  split
  · exact rel.looks (hf s'.quiet) hs.symm rfl
  · exact rel.same hs

theorem runFrame_control (s : State) (f : FrameBits) (code want : Nat) (snap : Option Snapshot)
    {act : State → State × ResultCode} (hact : ∀ u, R u (act u).1) : R s (runFrame s f code want snap act) := by
  cases hend : f.ended with
  | false =>
    rw [runFrame_goesOn s code want snap act hend]
    exact rel.same rfl
  | true =>
    rw [runFrame_ended s code want snap act hend]
    by_cases hlen : f.edges code = 8 * want
    · rw [closeFrame_rightLength _ _ _ _ _ _ hlen]
      exact rel.looks (hact (withSdo s.quiet _)) rfl rfl
    · rw [closeFrame_wrongLength _ _ _ _ _ _ hlen]
      exact rel.looks (rel.discard s) rfl rfl

theorem commandFrame_control (s : State) (c : Command) (f : FrameBits) {act : State → State × ResultCode}
    (hact : ∀ u, R u (act u).1) : NextHas (R s) (commandFrame s c f act) := by
  refine nextHas_next ?_
  split
  · exact runFrame_control rel s f 1 c.frameLength none hact
  · exact rel.same rfl

theorem tableFrame_control (s : State) (t : Table) (f : FrameBits) {act : Byte → List Byte → State → State × ResultCode}
    (hact : ∀ b d u, R u (act b d u).1) : NextHas (R s) (tableFrame s t f act) := by
  refine nextHas_next ?_
  split
  · exact runFrame_control rel s f 2 t.frameLength none (hact _ _)
  · exact rel.same rfl

theorem readFrame_control (s : State) (m : FrameMoment) (f : FrameBits) (code want : Nat) (snap : Snapshot)
    {act : Snapshot → State → State × ResultCode} (hact : ∀ o u, R u (act o u).1) :
    NextHas (R s) (readFrame s m f code want snap act) := by
  refine nextHas_next ?_
  cases m with
  | opening =>
    simp only
    split
    · exact runFrame_control rel s f code want _ (hact _)
    · exact rel.same rfl
  | resuming =>
    simp only
    split
    · split
      · exact runFrame_control rel s f code want _ (hact _)
      · exact rel.same rfl
    · exact rel.same rfl

theorem badFrameEvent_control (s : State) (f : FrameBits) : R s (badFrameEvent s f) := by
  unfold badFrameEvent
  split
  · split
    · exact rel.looks (rel.discard s) rfl rfl
    · exact rel.same rfl
  · exact rel.same rfl

theorem lineResetEvent_control (s : State) (event : ∀ u v, ControlEvent .lineReset u v → R u v) :
    R s (lineResetEvent s) := by
  unfold lineResetEvent
  split
  · exact event _ _ (.lineReset s _ _)
  · exact rel.same rfl
  · exact rel.same rfl

theorem endOfResetEvent_control (s : State) (e : ResetEnd) (event : ∀ u v, ControlEvent (.endOfReset e) u v → R u v) :
    R s (endOfResetEvent s e) := by
  have held {ph : Phase} (hph : s.phase = ph) (hne : ph ≠ .running) : s.phase ≠ .running := hph ▸ hne
  unfold endOfResetEvent
  split
  · exact rel.same rfl
  · rename_i hph
    split
    · exact event _ _ (.leaveReset s e (held hph nofun))
    · exact rel.looks (event _ _ (.stayInReset s e (held hph nofun))) rfl rfl
  · rename_i hph
    split
    · exact event _ _ (.leaveReset s e (held hph nofun))
    · exact rel.same rfl

/-- A command relates the states before and after it as each of its events that can move the control part does. -/
theorem exec_control (c : Instr) (s : State) (event : ∀ u v, ControlEvent c u v → R u v) : NextHas (R s) (exec c s) := by
  cases c with
  | requestPresented p r => exact nextHas_next (rel.same rfl)
  | take => exact whileRunning_control rel rfl fun u => event _ _ (.take u)
  | issue ready => exact whileRunning_control rel (s' := withReady s ready) rfl fun u => rel.same (controlPart_issueEvent u)
  | completion τ status data => exact whileRunning_control rel rfl fun u => event _ _ (.completion u τ status data)
  | tick => exact whileRunning_control rel rfl fun u => event _ _ (.tick u)
  | expiry => exact whileRunning_control rel rfl fun u => event _ _ (.expiry u)
  | quiesceChange e => exact whileRunning_control rel (s' := withQuiesce s e) rfl fun u => event _ _ (.quiesce u e)
  | powerOnReset => exact nextHas_next (event _ _ (.powerOnReset s _ _))
  | lineReset => exact nextHas_next (lineResetEvent_control rel s event)
  | readEntry m t f => exact readFrame_control rel s m f _ _ _ fun _ _ => rel.same rfl
  | writeEntry t f => exact tableFrame_control rel s t.table f (act := fun _ _ => refuseWrite) fun _ _ _ => rel.same rfl
  | writeGlobal f =>
    refine tableFrame_control rel s .global f fun b d u => ?_
    rcases writeGlobalEntry_does b d u with same | ⟨r, legal, applied⟩
    · exact same.symm ▸ rel.idle u
    · exact applied.symm ▸ event _ _ (.writeGlobal u f r legal)
  | writePort f =>
    refine tableFrame_control rel s .port f fun b d u => ?_
    rcases writePortEntry_does b d u with same | ⟨p, r, legal, applied⟩
    · exact same.symm ▸ rel.idle u
    · exact applied.symm ▸ event _ _ (.writePort u f p r legal)
  | writeClass f =>
    refine tableFrame_control rel s .cls f fun b d u => ?_
    rcases writeClassEntry_does b d u with same | ⟨k, r, applied⟩
    · exact same.symm ▸ rel.idle u
    · exact applied.symm ▸ event _ _ (.writeClass u f k r)
  | writeMeter f =>
    refine tableFrame_control rel s .meter f fun b d u => ?_
    rcases writeMeterEntry_does b d u with same | ⟨m, applied⟩
    · exact same.symm ▸ rel.idle u
    · exact applied.symm ▸ event _ _ (.writeMeter u f m d)
  | meterLoad f =>
    refine tableFrame_control rel s .meter f fun b d u => ?_
    rcases writeMeterEntry_does b d u with same | ⟨m, applied⟩
    · exact same.symm ▸ rel.idle u
    · exact applied.symm ▸ event _ _ (.meterLoad u f m d)
  | writeRulePattern f =>
    exact tableFrame_control rel s .rulePattern f fun b d u =>
      rel.same (writePatternEntry_eq b d u ▸ controlPart_writeRuleHalf _ _ b u)
  | writeRuleAction f =>
    exact tableFrame_control rel s .ruleAction f fun b d u =>
      rel.same (writeActionEntry_eq b d u ▸ controlPart_writeRuleHalf _ _ b u)
  | writeEventMask f =>
    exact tableFrame_control rel s .eventMask f fun b d u => rel.same (controlPart_writeMaskEntry b d u)
  | popCapture m f => exact readFrame_control rel s m f _ _ _ fun o u => rel.same (controlPart_popEnd o u)
  | swapBanks f => exact commandFrame_control rel s .swapBanks f fun _ => rel.same rfl
  | clearGroup f => exact commandFrame_control rel s .clearGroup f fun u => rel.same (controlPart_clearGroupAct f u)
  | clearAllCounters f => exact commandFrame_control rel s .clearAllCounters f fun _ => rel.same rfl
  | clearEvents f =>
    refine commandFrame_control rel s .clearEvents f fun u => ?_
    obtain ⟨bits, cleared⟩ := clearEventsAct_does f u
    exact rel.looks (event _ _ (.clearEvents u f bits)) rfl cleared
  | clearCause f => exact commandFrame_control rel s .clearCause f fun _ => rel.same rfl
  | drain f => exact commandFrame_control rel s .drain f fun u => event _ _ (.drain u f)
  | release f => exact commandFrame_control rel s .release f fun u => event _ _ (.release u f)
  | setMode f =>
    refine commandFrame_control rel s .setMode f fun u => ?_
    rcases setModeAct_does f u with same | ⟨m, changed⟩
    · exact same.symm ▸ rel.idle u
    · exact changed.symm ▸ event _ _ (.setMode u f m)
  | setSeed f => exact commandFrame_control rel s .setSeed f fun u => rel.same (controlPart_setSeedAct f u)
  | reclaimTags f => exact commandFrame_control rel s .reclaimTags f fun u => rel.same (controlPart_reclaimAct u)
  | governorReset strap f =>
    exact commandFrame_control rel s .governorReset f (act := fun t => (governorReset t strap, .done)) fun u =>
      event _ _ (.governorReset u strap f)
  | badFrame f => exact nextHas_next (badFrameEvent_control rel s f)
  | endOfReset e => exact nextHas_next (endOfResetEvent_control rel s e event)
  | csNHighAfterReset => exact whileRunning_control rel rfl fun _ => rel.same rfl

theorem refclkPeriod_control (s : State) (event : ∀ u v, ControlEvent .tick u v → R u v) : R s (refclkPeriod s) := by
  unfold refclkPeriod
  split
  · split
    · exact rel.looks (event _ _ (.tick s.quiet)) rfl rfl
    · exact rel.same rfl
  · exact rel.same rfl

/-- So does a step, by the command or the REFCLK period it runs. -/
theorem step_control (s : State) (event : ∀ c u v, ControlEvent c u v → R u v) : NextHas (R s) (step s) := by
  cases hp : s.pending with
  | nil => exact step_nil hp ▸ nextHas_next (refclkPeriod_control rel s (event .tick))
  | cons c rest =>
    rw [step_cons hp]
    intro t ht
    exact rel.looks (exec_control rel c { s with pending := rest } (event c) t ht) rfl rfl

end Control

/-! ### The latches stay as an evaluation leaves them -/

/-- An OFF threshold lies on the far side of its ON threshold: no latch's two conditions hold together (R86, R87). -/
def ThresholdsApart (s : State) : Prop :=
  s.glob.holdOff < s.glob.holdOn ∧
    ∀ p : Fin 6, s.portRec[p].holdOff < s.portRec[p].holdOn ∧ s.portRec[p].paceOn < s.portRec[p].paceOff

/-- What O59 says of every moment, with the part of the settings that it rests on. -/
structure LatchesHold (s : State) : Prop where
  apart   : ThresholdsApart s
  bypass  : BypassLatchesOff s
  settled : LatchesSettled s

/-- The fields that `LatchesHold` speaks of. -/
def latchPart (s : State) :
    Mode × HoldLatches × Loads × GlobalRecord × Vector PortRecord 6 × Vector Meter 16 :=
  (s.drain.mode, s.hold, s.loads, s.glob, s.portRec, s.meters)

/-! A latch that an evaluation would leave stays so while its thresholds and its quantity stay. -/

theorem evalGlobal_kept {s t : State} (h : evalGlobal s = s.hold.glob) (hold : t.hold = s.hold) (glob : t.glob = s.glob)
    (load : t.loads.totalLoad = s.loads.totalLoad) : evalGlobal t = t.hold.glob := by
  rw [hold, ← h]
  simp only [evalGlobal, hold, glob, load]

theorem evalPort_kept {s t : State} {p : Fin 6} (h : evalPort s p = s.hold.port[p]) (hold : t.hold = s.hold)
    (record : t.portRec[p] = s.portRec[p]) (load : t.loads.portLoad[p] = s.loads.portLoad[p]) :
    evalPort t p = t.hold.port[p] := by
  rw [hold, ← h]
  simp only [evalPort, hold, record, load]

theorem evalPace_kept {s t : State} {p : Fin 6} (h : evalPace s p = s.hold.pace[p]) (hold : t.hold = s.hold)
    (record : t.portRec[p] = s.portRec[p])
    (tokens : t.meters[s.portRec[p].paceMeter].c = s.meters[s.portRec[p].paceMeter].c) :
    evalPace t p = t.hold.pace[p] := by
  rw [hold, ← h]
  simp only [evalPace, hold, record, tokens]

theorem LatchesHold.congr {s t : State} (h : LatchesHold s) (he : latchPart t = latchPart s) : LatchesHold t := by
  simp only [latchPart, Prod.mk.injEq] at he
  obtain ⟨mode, hold, loads, glob, portRec, meters⟩ := he
  obtain ⟨apart, bypass, settled⟩ := h
  constructor
  · rwa [ThresholdsApart, glob, portRec]
  · rwa [BypassLatchesOff, mode, hold]
  · intro enforce
    obtain ⟨globSettled, ports⟩ := settled (mode.symm.trans enforce)
    refine ⟨evalGlobal_kept globSettled hold glob (by rw [loads]), fun p => ?_⟩
    obtain ⟨port, pace⟩ := ports p
    exact ⟨evalPort_kept port hold (by rw [portRec]) (by rw [loads]),
      evalPace_kept pace hold (by rw [portRec]) (by rw [meters])⟩

theorem latchPart_of_control {s t : State} (h : controlPart t = controlPart s) : latchPart t = latchPart s := by
  simp only [controlPart, Prod.mk.injEq] at h
  obtain ⟨-, drain, hold, loads, ⟨glob, portRec, meters⟩, -⟩ := h
  simp only [latchPart, drain, hold, loads, glob, portRec, meters]

/-- In BYPASS mode the quantities and meters may move: no latch looks at them (R92). -/
theorem LatchesHold.of_bypass {s t : State} (h : LatchesHold s) (mode : t.drain.mode = .bypass)
    (hold : t.hold = HoldLatches.reset) (glob : t.glob = s.glob) (portRec : t.portRec = s.portRec) : LatchesHold t where
  apart := by
    rw [ThresholdsApart, glob, portRec]
    exact h.apart
  bypass := fun _ => hold
  settled := fun enforce => absurd (mode.symm.trans enforce) nofun

/-- A latch just evaluated stays where the same evaluation leaves it, if its conditions exclude each other (R88). -/
theorem hysteresis_idem (latch : Bool) {on off : Bool} (apart : (on && off) = false) :
    hysteresis (hysteresis latch on off) on off = hysteresis latch on off := by
  cases on
  · cases latch <;> cases off <;> rfl
  · cases off
    · cases latch <;> rfl
    · cases apart

/-- A level cannot be at an ON threshold and at an OFF threshold below it. -/
theorem thresholds_exclude {off on level : Nat} (h : off < on) : (decide (on ≤ level) && decide (level ≤ off)) = false := by
  rw [Bool.and_eq_false_imp, decide_eq_true_eq, decide_eq_false_iff_not]
  omega

theorem latchesAfter_enforce {s : State} (h : s.drain.mode = .enforce) (g : Bool) (pp pc : Fin 6 → Bool) :
    latchesAfter s g pp pc =
      { glob := if g then evalGlobal s else s.hold.glob
        port := .ofFn fun p => if pp p then evalPort s p else s.hold.port[p]
        pace := .ofFn fun p => if pc p then evalPace s p else s.hold.pace[p] } := if_pos h

/-- After an evaluation every latch is settled, if those it leaves out were settled against the quantities as they are (R90). -/
theorem LatchesHold.evaluated {s : State} {g : Bool} {pp pc : Fin 6 → Bool} (apart : ThresholdsApart s)
    (bypass : BypassLatchesOff s)
    (kept : s.drain.mode = .enforce →
      (g = false → evalGlobal s = s.hold.glob) ∧
        ∀ p : Fin 6, (pp p = false → evalPort s p = s.hold.port[p]) ∧ (pc p = false → evalPace s p = s.hold.pace[p])) :
    LatchesHold (evalLatches s g pp pc) := by
  cases mode : s.drain.mode with
  | bypass =>
    rw [evalLatches_bypass g pp pc mode]
    exact ⟨apart, bypass, fun enforce => absurd (mode.symm.trans enforce) nofun⟩
  | enforce =>
    obtain ⟨globKept, portsKept⟩ := kept mode
    obtain ⟨globApart, portsApart⟩ := apart
    refine ⟨⟨globApart, portsApart⟩, fun off => absurd (mode.symm.trans off) nofun, fun _ => ⟨?_, fun p => ?_⟩⟩
    · rw [evalGlobal, evalLatches_hold, latchesAfter_enforce mode]
      cases g with
      | false => exact globKept rfl
      | true => exact hysteresis_idem _ (thresholds_exclude globApart)
    · obtain ⟨loadApart, paceApart⟩ := portsApart p
      obtain ⟨portKept, paceKept⟩ := portsKept p
      constructor
      · have after : (evalLatches s g pp pc).hold.port[p] = if pp p then evalPort s p else s.hold.port[p] := by
          simp [latchesAfter_enforce mode]
        rw [evalPort, after]
        cases hp : pp p with
        | false => exact portKept hp
        | true => exact hysteresis_idem _ (thresholds_exclude loadApart)
      · have after : (evalLatches s g pp pc).hold.pace[p] = if pc p then evalPace s p else s.hold.pace[p] := by
          simp [latchesAfter_enforce mode]
        have exclude : (decide (s.meters[s.portRec[p].paceMeter].c < s.portRec[p].paceOn) &&
            decide (s.portRec[p].paceOff ≤ s.meters[s.portRec[p].paceMeter].c)) = false := by
          rw [Bool.and_eq_false_imp, decide_eq_true_eq, decide_eq_false_iff_not]
          omega
        rw [evalPace, after]
        cases hp : pc p with
        | false => exact paceKept hp
        | true => exact hysteresis_idem _ exclude

/-! #### What the events do to the latches -/

theorem latchPart_raiseIf (s : State) (b : Bool) (e : Sticky) : latchPart (s.raiseIf b e) = latchPart s := rfl
theorem latchPart_countDownAll (s : State) : latchPart (countDownAll s) = latchPart s := rfl
theorem latchPart_noteHold (s t : State) : latchPart (noteHold s t) = latchPart t := rfl

/-- A freeing evaluates the latches whose loads fall (R63, R90). -/
theorem LatchesHold.freed {s : State} (h : LatchesHold s) (ds : List Descriptor) :
    LatchesHold (handOn (freeDescriptors s ds) ds) := by
  have evaluated : LatchesHold (evalLatches (freeDescriptors s ds) (!ds.isEmpty) (fun p => ds.any fun d => d.port == p)
      fun _ => false) := by
    refine .evaluated h.apart h.bypass fun enforce => ?_
    obtain ⟨glob, ports⟩ := h.settled enforce
    refine ⟨fun none => ?_, fun p => ⟨fun none => ?_, fun _ => (ports p).2⟩⟩
    · have empty : ds = [] := by simpa using none
      subst empty
      exact glob
    · have same : (freeDescriptors s ds).loads.portLoad[p] = s.loads.portLoad[p] := by
        have nothing : (beatsWhere ds fun d => d.port == p) = 0 := by
          rw [beatsWhere, List.filter_eq_nil_iff.2 fun d hd => by simpa using List.any_eq_false.1 none d hd]
          rfl
        rw [freeDescriptors_loads, Loads.free_portLoad, nothing, Nat.sub_zero]
      exact evalPort_kept (ports p).1 rfl rfl same
  exact evaluated.congr rfl

/-- A charge reaches the committed tokens of a meter only if that counts as charged (R54, R90). -/
theorem chargeMeters_uncharged {meter : Option (Fin 16)} {c : Colour} {j : Fin 16} (h : charged meter c j = false)
    (ms : Vector Meter 16) (n : Nat) : (chargeMeters ms meter c n)[j] = ms[j] := by
  cases meter with
  | none => rfl
  | some m =>
    by_cases hj : j = m
    · subst hj
      have red : c = .red := by simpa [charged] using h
      rw [chargeMeters_getElem_same, red]
      rfl
    · exact chargeMeters_getElem_other ms hj c n

/-- An ENFORCE admission evaluates the latches whose quantities it moves (R82, R90). -/
theorem LatchesHold.admitted {s : State} (h : LatchesHold s) (p : Fin 6) (r : Request) (res : Resolution) (c : Colour) :
    LatchesHold (takeAdmitted s p r res c) := by
  refine .evaluated h.apart h.bypass fun enforce => ⟨nofun, fun q => ?_⟩
  obtain ⟨port, pace⟩ := (h.settled enforce).2 q
  refine ⟨fun other => ?_, fun uncharged => ?_⟩
  · have same : (s.loads.add s.classRec p res.cls r.beats).portLoad[q] = s.loads.portLoad[q] := by
      rw [Loads.add_portLoad, if_neg (by simpa using other)]
    exact evalPort_kept port rfl rfl same
  · have same := congrArg Meter.c (chargeMeters_uncharged uncharged s.meters r.size)
    exact evalPace_kept pace rfl rfl same

@[simp] theorem latchPart_capture (s : State) (p : Fin 6) (r : Request) (res : Resolution) (c : Option Colour)
    (o : TakeOutcome) : latchPart (capture s p r res c o) = latchPart s := by
  unfold capture
  split <;> rfl

theorem latchPart_countRed (s : State) (g : Fin 24) (c : Colour) : latchPart (countRed s g c) = latchPart s := by
  unfold countRed
  split <;> rfl

theorem takeMetered_latchesHold {s : State} (p : Fin 6) (r : Request) (res : Resolution) (h : LatchesHold s) :
    LatchesHold (takeMetered s p r res) := by
  have marked := h.congr (latchPart_countRed s res.group (colourAt s p r res.meter))
  simp only [takeMetered]
  split
  · exact marked.congr (latchPart_capture _ p r res _ _)
  · refine LatchesHold.congr (LatchesHold.admitted (marked.congr ?_) p r res _) (latchPart_capture _ p r res _ _)
    rfl

theorem takeEnforce_latchesHold {s : State} (p : Fin 6) (r : Request) (h : LatchesHold s) :
    LatchesHold (takeEnforce s p r) := by
  simp only [takeEnforce]
  split
  · exact h.congr (latchPart_capture _ p r _ _ _)
  · exact takeMetered_latchesHold p r _ h

theorem takeBypass_latchesHold {s : State} (p : Fin 6) (r : Request) (mode : s.drain.mode = .bypass)
    (h : LatchesHold s) : LatchesHold (takeBypass s p r) := by
  unfold takeBypass
  split
  · exact h.congr rfl
  · exact h.of_bypass mode (h.bypass mode) rfl rfl

/-- A take is nothing, or the take of one port's request. -/
theorem takeEvent_cases (s : State) : takeEvent s = s ∨ ∃ p r, grant s = some p ∧ takeEvent s = takeRequest s p r := by
  unfold takeEvent
  split
  · exact .inl rfl
  · split
    · exact .inl rfl
    · exact .inr ⟨_, _, ‹_›, rfl⟩

theorem takeEvent_latchesHold {s : State} (h : LatchesHold s) : LatchesHold (takeEvent s) := by
  rcases takeEvent_cases s with idle | ⟨p, r, -, taken⟩
  · rwa [idle]
  · have accepted : LatchesHold (acceptRequest s p) := h.congr rfl
    rw [taken, takeRequest]
    split
    · exact accepted.congr rfl
    · split
      · exact (takeBypass_latchesHold p r ‹_› accepted).congr rfl
      · exact (takeEnforce_latchesHold p r accepted).congr rfl

theorem completionEvent_latchesHold {s : State} (τ : Fin 32) (status : MemStatus) (data : List Beat)
    (h : LatchesHold s) : LatchesHold (completionEvent τ status data s) := by
  unfold completionEvent
  split
  · rename_i d _
    split
    · have answered : LatchesHold { respond s d.port ⟨d.tag, .okay, readDataFor d data⟩ with tags := s.tags.set τ .free } :=
        h.congr rfl
      exact (answered.freed [d]).congr rfl
    · have answered : LatchesHold
          { (count (respond s d.port (plainResponse d.tag (.fault .memory))) d.group .faulted 1).raise .memoryError with
            tags := s.tags.set τ .free } := h.congr rfl
      exact (answered.freed [d]).congr rfl
  · exact h.congr rfl
  · exact h.congr rfl

theorem latchPart_countEach (s : State) (gs : List (Fin 24)) (c : Counter) :
    latchPart (countEach s gs c) = latchPart s := by
  induction gs generalizing s with
  | nil => rfl
  | cons g gs ih => exact (ih (count s g c 1)).trans rfl

theorem expireAll_latchesHold {s : State} (h : LatchesHold s) : LatchesHold (expireAll s) := by
  have answered : LatchesHold (respondAll (dropExpired s) (expiring s) (.fault .expired)) := h.congr rfl
  have counted := answered.congr (latchPart_countEach _ ((expiring s).map Descriptor.group) .faulted)
  exact LatchesHold.freed (counted.congr (latchPart_raiseIf _ _ _)) (expiring s)

/-- A tick evaluates every pace latch against the refilled tokens (R47, R90). -/
theorem refillMeters_latchesHold {s : State} (h : LatchesHold s) : LatchesHold (refillMeters s) := by
  refine .evaluated h.apart h.bypass fun enforce => ?_
  obtain ⟨glob, ports⟩ := h.settled enforce
  exact ⟨fun _ => evalGlobal_kept glob rfl rfl rfl, fun p => ⟨fun _ => evalPort_kept (ports p).1 rfl rfl rfl, nofun⟩⟩

theorem tickEvent_latchesHold {s : State} (h : LatchesHold s) : LatchesHold (tickEvent s) := by
  have restarted : LatchesHold { s with tickCounter := 0 } := h.congr rfl
  have counted := (refillMeters_latchesHold restarted).congr (latchPart_countDownAll _)
  exact (expireAll_latchesHold counted).congr (latchPart_noteHold _ _)

theorem applyGlobal_latchesHold {s : State} {r : GlobalRecord} (legal : GlobalLegal r) (h : LatchesHold s) :
    LatchesHold (applyGlobal s r) := by
  obtain ⟨-, -, apart, -⟩ := legal
  have evaluated : LatchesHold (evalLatches { s with glob := r } true (fun _ => false) fun _ => false) := by
    refine .evaluated ⟨apart, h.apart.2⟩ h.bypass fun enforce => ⟨nofun, fun p => ?_⟩
    obtain ⟨port, pace⟩ := (h.settled enforce).2 p
    exact ⟨fun _ => port, fun _ => pace⟩
  rw [applyGlobal_eq]
  exact evaluated.congr rfl

theorem applyPort_latchesHold {s : State} {r : PortRecord} (p : Fin 6) (legal : PortLegal r) (h : LatchesHold s) :
    LatchesHold (applyPort s p r) := by
  obtain ⟨-, -, loadApart, -, paceApart, -⟩ := legal
  have apart : ThresholdsApart { s with portRec := s.portRec.set p r } := by
    refine ⟨h.apart.1, fun q => ?_⟩
    simp only [getElem_set_fin]
    split
    · exact ⟨loadApart, paceApart⟩
    · exact h.apart.2 q
  refine LatchesHold.congr (s := evalLatches { s with portRec := s.portRec.set p r } false (fun q => q == p)
    fun q => q == p) ?_ rfl
  refine .evaluated apart h.bypass fun enforce => ⟨fun _ => (h.settled enforce).1, fun q => ?_⟩
  obtain ⟨port, pace⟩ := (h.settled enforce).2 q
  have other (hq : (q == p) = false) : (s.portRec.set p r)[q] = s.portRec[q] := by
    rw [getElem_set_fin, if_neg fun he => by simp [he] at hq]
  exact ⟨fun hq => evalPort_kept port rfl (other hq) rfl, fun hq => evalPace_kept pace rfl (other hq) rfl⟩

/-- A METER write that is not watched leaves the committed tokens (R56, R90). -/
theorem meterWritten_unwatched {m : Meter} {d : List Byte} (h : meterWriteWatched m d = false) :
    (meterWritten m d).c = m.c := by
  simp only [meterWriteWatched, Bool.or_eq_false_iff, decide_eq_false_iff_not] at h
  obtain ⟨noLoad, fits⟩ := h
  simp only [meterWritten, noLoad, Bool.false_eq_true, if_false]
  omega

theorem applyMeter_latchesHold {s : State} (m : Fin 16) (d : List Byte) (h : LatchesHold s) :
    LatchesHold (applyMeter s m d) := by
  have tokens {q : Fin 6} (unwatched : (meterWriteWatched s.meters[m] d && s.portRec[q].paceMeter == m) = false) :
      (s.meters.set m (meterWritten s.meters[m] d))[s.portRec[q].paceMeter].c = s.meters[s.portRec[q].paceMeter].c := by
    rw [getElem_set_fin]
    split
    · rename_i hm
      subst hm
      exact meterWritten_unwatched (by simpa using unwatched)
    · rfl
  refine LatchesHold.congr (s := evalLatches { s with meters := s.meters.set m (meterWritten s.meters[m] d) } false
    (fun _ => false) fun q => meterWriteWatched s.meters[m] d && s.portRec[q].paceMeter == m) ?_ rfl
  refine .evaluated h.apart h.bypass fun enforce => ⟨fun _ => (h.settled enforce).1, fun q => ?_⟩
  obtain ⟨port, pace⟩ := (h.settled enforce).2 q
  exact ⟨fun _ => port, fun unwatched => evalPace_kept pace rfl rfl (tokens unwatched)⟩

/-- A change of mode evaluates every latch from OFF (R92). -/
theorem changeMode_latchesHold {s : State} (m : Mode) (h : LatchesHold s) : LatchesHold (changeMode s m) := by
  refine LatchesHold.congr (s := evalLatches { s with drain := { s.drain with mode := m }, hold := .reset } true
    (fun _ => true) fun _ => true) ?_ rfl
  exact .evaluated h.apart (fun _ => rfl) fun _ => ⟨nofun, fun _ => ⟨nofun, nofun⟩⟩

theorem thresholdsApart_of_settings {s : State} (h : SettingsLegal s) : ThresholdsApart s := by
  obtain ⟨⟨-, -, glob, -⟩, ports, -⟩ := h
  refine ⟨glob, fun p => ?_⟩
  obtain ⟨-, -, load, -, pace, -⟩ := ports p
  exact ⟨load, pace⟩

theorem latchesHold_reset : LatchesHold State.reset :=
  ⟨thresholdsApart_of_settings settingsLegal_reset, fun _ => rfl, latchesSettled_reset⟩

theorem Drain.reset_mode (strap : Bool) : (Drain.reset strap).mode = .bypass := by cases strap <;> rfl

/-- What O59's relation asks of the state before: the latches of a held part are OFF (R93, R187). -/
def KeepsLatches (s t : State) : Prop :=
  (s.phase ≠ .running → s.hold = HoldLatches.reset) → LatchesHold s → LatchesHold t

theorem keepsLatches_control : ControlRelation KeepsLatches where
  looks h hs ht held before := by
    have phase := congrArg Prod.fst hs
    have latches := latchPart_of_control hs
    simp only [controlPart] at phase
    refine (h (fun held' => ?_) (before.congr latches.symm)).congr (latchPart_of_control ht)
    rw [← phase] at held'
    exact (congrArg (fun x => x.2.1) latches).symm.trans (held held')
  idle _ _ h := h
  discard _ _ h := h.congr rfl

theorem controlEvent_keepsLatches {c : Instr} {s t : State} (event : ControlEvent c s t) : KeepsLatches s t := by
  intro held h
  cases event with
  | take => exact takeEvent_latchesHold h
  | completion _ τ status data => exact completionEvent_latchesHold τ status data h
  | tick => exact tickEvent_latchesHold h
  | expiry => exact (expireAll_latchesHold h).congr (latchPart_noteHold _ _)
  | quiesce => exact h.congr rfl
  | powerOnReset | lineReset => exact latchesHold_reset.congr rfl
  | governorReset _ strap => exact latchesHold_reset.of_bypass (Drain.reset_mode strap) rfl rfl rfl
  | leaveReset _ e inReset => exact h.of_bypass (Drain.reset_mode e.startHeld) (held inReset) rfl rfl
  | stayInReset => exact h.congr rfl
  | writeGlobal _ f r legal => exact applyGlobal_latchesHold legal h
  | writePort _ f p r legal => exact applyPort_latchesHold p legal h
  | writeClass => exact ⟨h.apart, h.bypass, h.settled⟩
  | writeMeter _ f m d | meterLoad _ f m d => exact applyMeter_latchesHold m d h
  | clearEvents => exact h.congr rfl
  | drain =>
    unfold drainAct
    split <;> exact h.congr rfl
  | release => exact h.congr rfl
  | setMode _ f m => exact changeMode_latchesHold m h

/-- Settles O59: every event that moves a watched quantity or a setting evaluates the latches that watch it. -/
theorem latchesKept : Obligations.LatchesKept := by
  intro s t legal inReset bypass settled hstep
  have held (h : s.phase ≠ .running) : s.hold = HoldLatches.reset := congrArg State.hold (inReset h)
  obtain ⟨-, bypass', settled'⟩ := step_control keepsLatches_control s (fun _ _ _ => controlEvent_keepsLatches) t hstep
    held ⟨thresholdsApart_of_settings legal, bypass, settled⟩
  exact ⟨bypass', settled'⟩

/-! ### One sticky event at a time -/

theorem Sticky.bit_and_bit (e e' : Sticky) : e.bit &&& e'.bit = if e = e' then e.bit else 0#8 := by
  cases e <;> cases e' <;> rfl

theorem Sticky.bit_ne_zero (e : Sticky) : e.bit ≠ 0#8 := by
  cases e <;> decide

/-- An event's bit is its own: raising another leaves it (R160, R171). -/
theorem isRaised_raiseIf (s : State) (b : Bool) (e e' : Sticky) :
    (s.raiseIf b e).isRaised e' = (s.isRaised e' || (b && decide (e = e'))) := by
  cases b with
  | false => simp [State.isRaised, stickyWith_false]
  | true =>
    have joined : (s.events.sticky ||| e.bit) &&& e'.bit = (s.events.sticky &&& e'.bit) ||| (e.bit &&& e'.bit) := by
      ext i
      simp [Bool.and_or_distrib_right]
    simp only [State.isRaised, raiseIf_events, stickyWith_true, joined, Sticky.bit_and_bit, Bool.true_and]
    by_cases h : e = e'
    · simp [h, e'.bit_ne_zero]
    · simp [h]

theorem isRaised_raiseIf_other (s : State) (b : Bool) {e e' : Sticky} (h : e ≠ e') :
    (s.raiseIf b e).isRaised e' = s.isRaised e' := by
  rw [isRaised_raiseIf, decide_eq_false h, Bool.and_false, Bool.or_false]

/-! #### What leaves the drain, HOLD_CHANGE and DRAIN_DONE -/

/-- Of the phase, the drain and their two sticky events, the later state has what the earlier had. -/
structure LeavesDrain (s t : State) : Prop where
  phase      : t.phase = s.phase
  drain      : t.drain = s.drain
  holdChange : t.isRaised .holdChange = s.isRaised .holdChange
  drainDone  : t.isRaised .drainDone = s.isRaised .drainDone

theorem LeavesDrain.of_eq {s t : State} (phase : t.phase = s.phase) (drain : t.drain = s.drain)
    (sticky : t.events.sticky = s.events.sticky) : LeavesDrain s t where
  phase := phase
  drain := drain
  holdChange := by rw [State.isRaised, State.isRaised, sticky]
  drainDone := by rw [State.isRaised, State.isRaised, sticky]

theorem LeavesDrain.trans {s t u : State} (h : LeavesDrain s t) (h' : LeavesDrain t u) : LeavesDrain s u where
  phase := h'.phase.trans h.phase
  drain := h'.drain.trans h.drain
  holdChange := h'.holdChange.trans h.holdChange
  drainDone := h'.drainDone.trans h.drainDone

theorem raiseIf_leavesDrain (s : State) (b : Bool) {e : Sticky} (hold : e ≠ .holdChange) (done : e ≠ .drainDone) :
    LeavesDrain s (s.raiseIf b e) where
  phase := rfl
  drain := rfl
  holdChange := isRaised_raiseIf_other s b hold
  drainDone := isRaised_raiseIf_other s b done

theorem count_leavesDrain (s : State) (g : Fin 24) (c : Counter) (n : Nat) : LeavesDrain s (count s g c n) :=
  (raiseIf_leavesDrain s _ (e := .counterHalf) nofun nofun).trans (.of_eq rfl rfl rfl)

theorem countEach_leavesDrain (s : State) (gs : List (Fin 24)) (c : Counter) : LeavesDrain s (countEach s gs c) := by
  induction gs generalizing s with
  | nil => exact .of_eq rfl rfl rfl
  | cons g gs ih => exact (count_leavesDrain s g c 1).trans (ih _)

theorem countRed_leavesDrain (s : State) (g : Fin 24) (c : Colour) : LeavesDrain s (countRed s g c) := by
  unfold countRed
  split
  · exact count_leavesDrain s g _ _
  · exact .of_eq rfl rfl rfl

theorem capture_leavesDrain (s : State) (p : Fin 6) (r : Request) (res : Resolution) (c : Option Colour)
    (o : TakeOutcome) : LeavesDrain s (capture s p r res c o) := by
  unfold capture
  split
  · exact .of_eq rfl rfl rfl
  · exact (raiseIf_leavesDrain s _ (e := .captureLost) nofun nofun).trans (.of_eq rfl rfl rfl)

theorem respond_leavesDrain (s : State) (p : Fin 6) (r : Response) : LeavesDrain s (respond s p r) :=
  .of_eq rfl rfl rfl

theorem evalLatches_leavesDrain (s : State) (g : Bool) (pp pc : Fin 6 → Bool) : LeavesDrain s (evalLatches s g pp pc) :=
  .of_eq rfl rfl rfl

/-! #### A take -/

theorem countAdmission_leavesDrain {s u : State} (h : LeavesDrain s u) (g : Fin 24) (r : Request) :
    LeavesDrain s (countAdmission u g r) :=
  (h.trans (count_leavesDrain u g _ _)).trans (count_leavesDrain _ g _ _)

theorem takeRetry_leavesDrain (s : State) (p : Fin 6) (r : Request) (g : Fin 24) (why : RetryReason) :
    LeavesDrain s (takeRetry s p r g why) := (count_leavesDrain s g _ _).trans (respond_leavesDrain _ p _)

theorem takeBypass_leavesDrain (s : State) (p : Fin 6) (r : Request) : LeavesDrain s (takeBypass s p r) := by
  unfold takeBypass
  split
  · exact takeRetry_leavesDrain s p r _ _
  · refine countAdmission_leavesDrain ?_ _ r
    exact .of_eq rfl rfl rfl

theorem takeMetered_leavesDrain (s : State) (p : Fin 6) (r : Request) (res : Resolution) :
    LeavesDrain s (takeMetered s p r res) := by
  have marked := countRed_leavesDrain s res.group (colourAt s p r res.meter)
  simp only [takeMetered]
  split
  · refine .trans (.trans (marked.trans ?_) (takeRetry_leavesDrain _ p r res.group _)) (capture_leavesDrain _ p r res _ _)
    exact .of_eq rfl rfl rfl
  · refine .trans ?_ (capture_leavesDrain _ p r res _ _)
    refine .trans (countAdmission_leavesDrain (marked.trans ?_) res.group r) (evalLatches_leavesDrain _ _ _ _)
    exact .of_eq rfl rfl rfl

theorem takeEnforce_leavesDrain (s : State) (p : Fin 6) (r : Request) : LeavesDrain s (takeEnforce s p r) := by
  simp only [takeEnforce]
  split
  · exact .trans (.trans (count_leavesDrain s _ _ _) (respond_leavesDrain _ p _)) (capture_leavesDrain _ p r _ _ _)
  · exact takeMetered_leavesDrain s p r _

/-- The take of a request is noted for HOLD_CHANGE, and otherwise leaves the drain and its events. -/
theorem takeRequest_noted (s : State) (p : Fin 6) (r : Request) :
    ∃ u, LeavesDrain s u ∧ takeRequest s p r = noteHold s u := by
  refine ⟨_, ?_, rfl⟩
  have accepted : LeavesDrain s (acceptRequest s p) := .of_eq rfl rfl rfl
  split
  · exact (accepted.trans (count_leavesDrain _ _ _ _)).trans (respond_leavesDrain _ p _)
  · split
    · exact accepted.trans (takeBypass_leavesDrain _ p r)
    · exact accepted.trans (takeEnforce_leavesDrain _ p r)

/-! #### A freeing -/

/-- An event that frees: descriptors are freed and that is handed on, from a state with the drain and the loads before it. -/
def FreesFrom (s t : State) : Prop :=
  ∃ u ds, LeavesDrain s u ∧ u.loads = s.loads ∧ t = noteHold s (handOn (freeDescriptors u ds) ds)

theorem expireAll_frees {before s : State} (h : LeavesDrain before s) (loads : s.loads = before.loads) :
    FreesFrom before (noteHold before (expireAll s)) := by
  have dropped : LeavesDrain s (respondAll (dropExpired s) (expiring s) (.fault .expired)) := .of_eq rfl rfl rfl
  have counted := (h.trans dropped).trans (countEach_leavesDrain _ ((expiring s).map Descriptor.group) .faulted)
  have sameLoads := (loadedPart_eq (loadedPart_countEach (respondAll (dropExpired s) (expiring s) (.fault .expired))
    ((expiring s).map Descriptor.group) .faulted)).1
  exact ⟨_, _, counted.trans (raiseIf_leavesDrain _ (!(expiring s).isEmpty) (e := .expired) nofun nofun),
    sameLoads.trans loads, rfl⟩

theorem tickEvent_frees (s : State) : FreesFrom s (tickEvent s) :=
  expireAll_frees (s := countDownAll (refillMeters { s with tickCounter := 0 })) (.of_eq rfl rfl rfl) rfl

theorem expiryEvent_frees (s : State) : FreesFrom s (expiryEvent s) := expireAll_frees (.of_eq rfl rfl rfl) rfl

/-- A completion frees where its tag is BUSY; otherwise it leaves the drain, the loads and the latches. -/
theorem completionEvent_frees (s : State) (τ : Fin 32) (status : MemStatus) (data : List Beat) :
    FreesFrom s (completionEvent τ status data s) ∨
      ∃ u, LeavesDrain s u ∧ u.loads = s.loads ∧ completionEvent τ status data s = noteHold s u := by
  unfold completionEvent
  split
  · rename_i d _
    left
    have tagFreed (v : State) : LeavesDrain v { v with tags := s.tags.set τ .free } := .of_eq rfl rfl rfl
    split
    · have answered := respond_leavesDrain s d.port ⟨d.tag, .okay, readDataFor d data⟩
      exact ⟨_, [d], answered.trans (tagFreed _), rfl, rfl⟩
    · have answered := respond_leavesDrain s d.port (plainResponse d.tag (.fault .memory))
      have counted := answered.trans (count_leavesDrain _ d.group .faulted 1)
      have reported := counted.trans (raiseIf_leavesDrain _ true (e := .memoryError) nofun nofun)
      exact ⟨_, [d], reported.trans (tagFreed _), rfl, rfl⟩
  · exact .inr ⟨{ s with tags := s.tags.set τ .free }, .of_eq rfl rfl rfl, rfl, rfl⟩
  · exact .inr ⟨s.raise .strayCompletion, raiseIf_leavesDrain _ _ nofun nofun, rfl, rfl⟩

/-! ### HOLD_CHANGE is raised by a change of HELD -/

/-- HOLD_CHANGE stands after if it stood before or the HELD state of a port changed (R91). -/
def NotesHold (s t : State) : Prop := t.isRaised .holdChange = (s.isRaised .holdChange || heldPorts s != heldPorts t)

theorem noteHold_notesHold {s u : State} (h : u.isRaised .holdChange = s.isRaised .holdChange) :
    NotesHold s (noteHold s u) := by
  rw [NotesHold, noteHold, isRaised_raiseIf, h, decide_eq_true rfl, Bool.and_true]
  rfl

theorem notesHold_of_same {s t : State} (h : t.isRaised .holdChange = s.isRaised .holdChange) (hold : t.hold = s.hold)
    (portRec : t.portRec = s.portRec) : NotesHold s t := by
  rw [NotesHold, h, heldPorts_congr hold portRec, bne_self_eq_false, Bool.or_false]

theorem setRequests_holdChange (s : State) (cmd ln : Bool) :
    (setRequests s cmd ln).isRaised .holdChange = s.isRaised .holdChange :=
  isRaised_raiseIf_other s ((cmd || ln) && !s.drain.requested && decide (s.loads.liveCount = 0)) (e := .drainDone) nofun

theorem FreesFrom.notesHold {s t : State} (h : FreesFrom s t) : NotesHold s t := by
  obtain ⟨u, ds, leaves, -, rfl⟩ := h
  have freed : (handOn (freeDescriptors u ds) ds).isRaised .holdChange = u.isRaised .holdChange :=
    isRaised_raiseIf_other u _ (e := .drainDone) nofun
  exact noteHold_notesHold (freed.trans leaves.holdChange)

theorem notesHold_control : ControlRelation NotesHold where
  looks {s s' t t'} h hs ht := by
    simp only [controlPart, Prod.mk.injEq] at hs ht
    obtain ⟨-, -, hold, -, ⟨-, portRec, -⟩, sticky⟩ := hs
    obtain ⟨-, -, hold', -, ⟨-, portRec', -⟩, sticky'⟩ := ht
    rw [NotesHold, State.isRaised, State.isRaised, sticky, sticky', heldPorts_congr hold portRec,
      heldPorts_congr hold' portRec']
    exact h
  idle _ := notesHold_of_same rfl rfl rfl
  discard s := notesHold_of_same (isRaised_raiseIf_other s true nofun) rfl rfl

theorem controlEvent_notesHold {c : Instr} {s t : State} (hc : clearsEvents c = false) (event : ControlEvent c s t) :
    NotesHold s t := by
  cases event with
  | take =>
    rcases takeEvent_cases s with idle | ⟨p, r, -, taken⟩
    · rw [idle]
      exact notesHold_control.idle s
    · obtain ⟨u, leaves, noted⟩ := takeRequest_noted s p r
      rw [taken, noted]
      exact noteHold_notesHold leaves.holdChange
  | completion _ τ status data =>
    rcases completionEvent_frees s τ status data with frees | ⟨u, leaves, -, noted⟩
    · exact frees.notesHold
    · rw [noted]
      exact noteHold_notesHold leaves.holdChange
  | tick => exact (tickEvent_frees s).notesHold
  | expiry => exact (expiryEvent_frees s).notesHold
  | quiesce => exact notesHold_of_same (setRequests_holdChange s _ _) rfl rfl
  | powerOnReset | lineReset | governorReset | clearEvents => cases hc
  | leaveReset | stayInReset => exact notesHold_of_same rfl rfl rfl
  | writeGlobal _ f r => exact noteHold_notesHold (setRequests_holdChange { s with glob := r, tickCounter := 0 } _ _)
  | writePort | writeMeter | meterLoad | setMode => exact noteHold_notesHold rfl
  | writeClass => exact notesHold_of_same rfl rfl rfl
  | drain =>
    unfold drainAct
    split
    · exact notesHold_of_same (setRequests_holdChange s _ _) rfl rfl
    · exact notesHold_control.idle s
  | release => exact notesHold_of_same (setRequests_holdChange s _ _) rfl rfl

theorem heldPorts_ne_iff (s t : State) : (heldPorts s != heldPorts t) = true ↔ ∃ p : Fin 6, held t p ≠ held s p := by
  have same : heldPorts s = heldPorts t ↔ ∀ p : Fin 6, held t p = held s p := by
    refine ⟨fun h p => ?_, fun h => by simp only [heldPorts, funext h]⟩
    simpa [heldPorts] using (congrArg (fun v : Vector Bool 6 => v[p]) h).symm
  rw [bne_iff_ne, Ne, same, not_forall]

/-- Settles O21: every event that can move HELD ends with the note of R91. -/
theorem holdChangeExactly : Obligations.HoldChangeExactly := by
  intro c s t hc hstep
  have noted := exec_control notesHold_control c s (fun _ _ => controlEvent_notesHold hc) t hstep
  rw [noted, Bool.or_eq_true, heldPorts_ne_iff]

/-! ### The operating state, and DRAIN_DONE by the end of a drain -/

/-- What an event can do to the drain: leave its state, give it a new request set (R95), or free descriptors (R95, R100). A take
that adds a live transaction finds it RUNNING (R11). -/
inductive DrainStep (s t : State) : Prop
  | kept (opState : t.drain.opState = s.drain.opState) (requested : t.drain.requested = s.drain.requested)
      (live : s.drain.opState = .running ∨ t.loads.liveCount = s.loads.liveCount)
      (done : t.isRaised .drainDone = s.isRaised .drainDone)
  | requests (cmd ln : Bool) (opState : t.drain.opState = opStateWith s.drain s.loads.liveCount cmd ln)
      (requested : t.drain.requested = (cmd || ln)) (live : t.loads.liveCount = s.loads.liveCount)
      (done : t.isRaised .drainDone =
        (s.isRaised .drainDone || ((cmd || ln) && !s.drain.requested && decide (s.loads.liveCount = 0))))
  | freeing (opState : t.drain.opState = opStateAfterFreeing s.drain.opState t.loads.liveCount)
      (requested : t.drain.requested = s.drain.requested) (live : t.loads.liveCount ≤ s.loads.liveCount)
      (done : t.isRaised .drainDone = (s.isRaised .drainDone || decide (s.drain.opState ≠ t.drain.opState)))

theorem OpStateAgrees.running_iff {s : State} (h : OpStateAgrees s) :
    s.drain.opState = .running ↔ s.drain.requested = false := h.1

/-- R95 by cases: requests that begin a drain end it at once where nothing is live; requests that go on change nothing; and with
the last request gone the part runs. -/
theorem opStateWith_eq {d : Drain} (h : d.opState = .running ↔ d.requested = false) (live : Nat) (cmd ln : Bool) :
    opStateWith d live cmd ln =
      if cmd || ln then if d.opState = .running then if live = 0 then .drained else .draining else d.opState
      else .running := by
  unfold opStateWith
  cases hreq : d.requested with
  | false => simp [h.2 hreq]
  | true =>
    have stopped : d.opState ≠ .running := fun hrun => by simp [h.1 hrun] at hreq
    simp [stopped]

theorem DrainStep.agrees {s t : State} (step : DrainStep s t) (h : OpStateAgrees s) : OpStateAgrees t := by
  obtain ⟨running, draining, drained⟩ := h
  cases step with
  | kept opState requested live done =>
    rw [OpStateAgrees, opState, requested]
    rcases live with hrun | live
    · exact ⟨running, fun h => by simp [hrun] at h, fun h => by simp [hrun] at h⟩
    · rw [live]
      exact ⟨running, draining, drained⟩
  | requests cmd ln opState requested live done =>
    rw [OpStateAgrees, opState, requested, live, opStateWith_eq running]
    cases cmd || ln with
    | false => simp
    | true =>
      by_cases hrun : s.drain.opState = .running
      · by_cases hlive : s.loads.liveCount = 0 <;> simp [hrun, hlive]
      · simpa [hrun] using ⟨draining, drained⟩
  | freeing opState requested live done =>
    rw [OpStateAgrees, opState, requested, opStateAfterFreeing]
    split
    · rename_i ended
      obtain ⟨hdraining, hlive⟩ := ended
      refine ⟨?_, nofun, fun _ => hlive⟩
      rw [← running, hdraining]
      simp
    · rename_i goesOn
      exact ⟨running, fun h hlive => goesOn ⟨h, hlive⟩, fun h => Nat.le_zero.1 ((drained h) ▸ live)⟩

/-- DRAIN_DONE marks exactly the entry into DRAINED (R95, R100). -/
theorem DrainStep.done {s t : State} (step : DrainStep s t) (h : OpStateAgrees s) :
    t.isRaised .drainDone = true ↔
      s.isRaised .drainDone = true ∨ (s.drain.opState ≠ .drained ∧ t.drain.opState = .drained) := by
  cases step with
  | kept opState requested live done =>
    rw [done, opState]
    tauto
  | requests cmd ln opState requested live done =>
    have notRequested : (!s.drain.requested) = true ↔ s.drain.opState = .running := by
      rw [h.running_iff, Bool.not_eq_true']
    rw [done, opState, opStateWith_eq h.running_iff, Bool.or_eq_true, Bool.and_eq_true, Bool.and_eq_true, notRequested,
      decide_eq_true_eq]
    refine or_congr_right ?_
    cases cmd || ln with
    | false => simp
    | true =>
      by_cases hrun : s.drain.opState = .running
      · by_cases hlive : s.loads.liveCount = 0 <;> simp [hrun, hlive]
      · simp [hrun]
  | freeing opState requested live done =>
    rw [done, opState, opStateAfterFreeing, Bool.or_eq_true, decide_eq_true_eq]
    refine or_congr_right ?_
    split
    · rename_i ended
      simp [ended.1]
    · simp

/-! #### What each event does to the drain -/

theorem DrainStep.idle (s : State) : DrainStep s s := .kept rfl rfl (.inr rfl) rfl

/-- What follows in the same event may leave the drain, the loads and DRAIN_DONE as the step left them. -/
theorem DrainStep.followed {s t u : State} (h : DrainStep s t) (drain : u.drain = t.drain) (loads : u.loads = t.loads)
    (done : u.isRaised .drainDone = t.isRaised .drainDone) : DrainStep s u := by
  cases h with
  | kept opState requested live done' =>
    exact .kept (drain ▸ opState) (drain ▸ requested) (loads ▸ live) (done.trans done')
  | requests cmd ln opState requested live done' =>
    exact .requests cmd ln (drain ▸ opState) (drain ▸ requested) (loads ▸ live) (done.trans done')
  | freeing opState requested live done' =>
    exact .freeing (drain ▸ loads ▸ opState) (drain ▸ requested) (loads ▸ live) (drain ▸ done.trans done')

theorem DrainStep.noted {s t : State} (h : DrainStep s t) (before : State) : DrainStep s (noteHold before t) :=
  h.followed rfl rfl (isRaised_raiseIf_other t _ nofun)

theorem LeavesDrain.drainStep {s t : State} (h : LeavesDrain s t)
    (live : s.drain.opState = .running ∨ t.loads.liveCount = s.loads.liveCount) : DrainStep s t :=
  .kept (by rw [h.drain]) (by rw [h.drain]) live h.drainDone

theorem FreesFrom.drainStep {s t : State} (h : FreesFrom s t) : DrainStep s t := by
  obtain ⟨u, ds, leaves, loads, rfl⟩ := h
  refine DrainStep.noted ?_ s
  have moved : (handOn (freeDescriptors u ds) ds).drain.opState =
      opStateAfterFreeing s.drain.opState (handOn (freeDescriptors u ds) ds).loads.liveCount := by
    rw [← leaves.drain]
    exact opStateAfterFreeing_eq (freeDescriptors u ds)
  refine .freeing moved (show u.drain.requested = s.drain.requested by rw [leaves.drain]) ?_ ?_
  · rw [← loads]
    exact Nat.sub_le _ _
  · rw [moved, ← leaves.drainDone, ← leaves.drain]
    refine (isRaised_raiseIf u (drainComplete (freeDescriptors u ds)) .drainDone .drainDone).trans ?_
    rw [decide_eq_true rfl, Bool.and_true, drainComplete_eq]
    rfl

theorem setRequests_drainStep {s u : State} (h : LeavesDrain s u) (loads : u.loads = s.loads) (cmd ln : Bool) :
    DrainStep s (setRequests u cmd ln) := by
  refine .requests cmd ln ?_ rfl (congrArg Loads.liveCount loads) ?_
  · rw [← h.drain, ← loads]
    rfl
  · rw [← h.drain, ← loads, ← h.drainDone]
    refine (isRaised_raiseIf u _ .drainDone .drainDone).trans ?_
    rw [decide_eq_true rfl, Bool.and_true]

theorem takeEvent_drainStep (s : State) : DrainStep s (takeEvent s) := by
  rcases takeEvent_cases s with idle | ⟨p, r, granted, taken⟩
  · rw [idle]
    exact .idle s
  · obtain ⟨-, -, -, -, running⟩ := (eligible_iff s p).1 (grant_eligible granted)
    obtain ⟨u, leaves, noted⟩ := takeRequest_noted s p r
    rw [taken, noted]
    exact (leaves.drainStep (.inl running)).noted s

theorem controlEvent_drainStep {c : Instr} {s t : State} (hc : clearsEvents c = false) (he : ∀ e, c ≠ .endOfReset e)
    (event : ControlEvent c s t) : DrainStep s t := by
  cases event with
  | take => exact takeEvent_drainStep s
  | completion _ τ status data =>
    rcases completionEvent_frees s τ status data with frees | ⟨u, leaves, loads, noted⟩
    · exact frees.drainStep
    · rw [noted]
      exact (leaves.drainStep (.inr (congrArg Loads.liveCount loads))).noted s
  | tick => exact (tickEvent_frees s).drainStep
  | expiry => exact (expiryEvent_frees s).drainStep
  | quiesce => exact setRequests_drainStep (.of_eq rfl rfl rfl) rfl _ _
  | powerOnReset | lineReset | governorReset | clearEvents => cases hc
  | leaveReset _ e | stayInReset _ e => exact absurd rfl (he e)
  | writeGlobal _ f r =>
    have rewritten : LeavesDrain s { s with glob := r, tickCounter := 0 } := .of_eq rfl rfl rfl
    exact (setRequests_drainStep rewritten rfl s.drain.command _).followed rfl rfl (isRaised_raiseIf_other _ _ nofun)
  | writePort | writeMeter | meterLoad | setMode =>
    refine DrainStep.noted ?_ s
    exact .kept rfl rfl (.inr rfl) rfl
  | writeClass => exact .kept rfl rfl (.inr rfl) rfl
  | drain =>
    unfold drainAct
    split
    · exact setRequests_drainStep (.of_eq rfl rfl rfl) rfl _ _
    · exact .idle s
  | release => exact setRequests_drainStep (.of_eq rfl rfl rfl) rfl _ _

/-- What O25 says of a command. -/
def NotesDrain (s t : State) : Prop :=
  OpStateAgrees s →
    (t.isRaised .drainDone = true ↔
      s.isRaised .drainDone = true ∨ (s.drain.opState ≠ .drained ∧ t.drain.opState = .drained))

theorem opStateAgrees_of_control {s t : State} (he : controlPart t = controlPart s) (h : OpStateAgrees s) :
    OpStateAgrees t := by
  simp only [controlPart, Prod.mk.injEq] at he
  obtain ⟨-, drain, -, loads, -⟩ := he
  rwa [OpStateAgrees, drain, loads]

theorem notesDrain_control : ControlRelation NotesDrain where
  looks {s s' t t'} h hs ht agrees := by
    have before := h (opStateAgrees_of_control hs.symm agrees)
    simp only [controlPart, Prod.mk.injEq] at hs ht
    obtain ⟨-, drain, -, -, -, sticky⟩ := hs
    obtain ⟨-, drain', -, -, -, sticky'⟩ := ht
    rwa [State.isRaised, State.isRaised, drain, drain', sticky, sticky']
  idle s h := (DrainStep.idle s).done h
  discard s h :=
    ((raiseIf_leavesDrain s true (e := .frameError) nofun nofun).drainStep (.inr rfl)).done h

/-- Settles O25: every event keeps the drain, moves it by its requests, or ends it by a freeing. -/
theorem drainDoneExactly : Obligations.DrainDoneExactly := by
  intro c s t agrees hc he hstep
  exact exec_control notesDrain_control c s (fun _ _ event => (controlEvent_drainStep hc he event).done) t hstep agrees

/-! #### Every step keeps the operating state -/

theorem opStateAgrees_sampled {s : State} (strap : Bool) (drain : s.drain = Drain.reset strap)
    (live : s.loads.liveCount = 0) : OpStateAgrees s := by
  rw [OpStateAgrees, drain, live]
  cases strap
  · exact ⟨⟨fun _ => rfl, fun _ => rfl⟩, nofun, fun _ => rfl⟩
  · exact ⟨⟨nofun, nofun⟩, nofun, fun _ => rfl⟩

/-- What O60 says of the operating state, given that nothing is live in a part held in reset (R187). -/
def KeepsOpState (s t : State) : Prop :=
  (s.phase ≠ .running → s.loads.liveCount = 0) → OpStateAgrees s → OpStateAgrees t

theorem keepsOpState_control : ControlRelation KeepsOpState where
  looks {s s' t t'} h hs ht held agrees := by
    refine opStateAgrees_of_control ht (h (fun inReset => ?_) (opStateAgrees_of_control hs.symm agrees))
    simp only [controlPart, Prod.mk.injEq] at hs
    obtain ⟨phase, -, -, loads, -⟩ := hs
    rw [← loads]
    exact held (phase.symm ▸ inReset)
  idle _ _ h := h
  discard _ _ h := h

theorem controlEvent_keepsOpState {c : Instr} {s t : State} (event : ControlEvent c s t) : KeepsOpState s t := by
  intro held agrees
  by_cases hends : ∃ e, c = .endOfReset e
  · cases event with
    | leaveReset _ e inReset => exact opStateAgrees_sampled e.startHeld rfl (held inReset)
    | stayInReset => exact agrees
    | _ => simp at hends
  · cases hc : clearsEvents c with
    | false => exact (controlEvent_drainStep hc (fun e he => hends ⟨e, he⟩) event).agrees agrees
    | true =>
      cases event with
      | powerOnReset | lineReset => exact opStateAgrees_reset
      | governorReset _ strap => exact opStateAgrees_sampled strap rfl rfl
      | clearEvents => exact agrees
      | _ => cases hc

/-! ### A part held in reset -/

/-- Of a part held in reset the phase, the lines, the cause record and the output channels may move. -/
theorem ResetHeld.moved {s : State} (h : ResetHeld s) (inReset : s.phase ≠ .running) (ph : Phase) (pins : Pins)
    (cause : ResetCause) (out : Outputs) (rest : List Instr) :
    ResetHeld { s with phase := ph, pins := pins, cause := cause, out := out, pending := rest } := fun _ =>
  congrArg (fun u : State => { u with phase := ph, pins := pins, cause := cause, out := out, pending := rest }) (h inReset)

theorem resetHeld_of_running {s : State} (h : s.phase = .running) : ResetHeld s := fun inReset => absurd h inReset

theorem inReset_resetHeld (s : State) (ph : Phase) (cause : ResetCause) (high : Bool) :
    ResetHeld (inReset s ph cause high) := by
  intro _
  have ports : (inReset s ph cause high).ports =
      .ofFn fun p => { PortState.reset with channel := (inReset s ph cause high).ports[p].channel } := by
    simp [inReset]
  exact congrArg (fun ps => { inReset s ph cause high with ports := ps }) ports

/-- A request placed on a channel during a reset stands there only (R184). -/
theorem presentRequest_resetHeld {s : State} (h : ResetHeld s) (inReset : s.phase ≠ .running) (p : Fin 6) (r : Request) :
    ResetHeld (presentRequest s p r) := by
  intro _
  have port (q : Fin 6) : s.ports[q] = { PortState.reset with channel := s.ports[q].channel } := by
    have all := congrArg State.ports (h inReset)
    simpa using congrArg (fun v : Vector PortState 6 => v[q]) all
  have ports : (presentRequest s p r).ports =
      .ofFn fun q => { PortState.reset with channel := (presentRequest s p r).ports[q].channel } := by
    ext q hq
    have here : (presentRequest s p r).ports[(⟨q, hq⟩ : Fin 6)] =
        { PortState.reset with channel := (presentRequest s p r).ports[(⟨q, hq⟩ : Fin 6)].channel } := by
      simp only [presentRequest, getElem_set_fin, inReset, false_and, if_false]
      split
      · rw [port p]
      · exact port _
    simpa using here
  exact (congrArg (fun u : State => { u with ports := (presentRequest s p r).ports }) (h inReset)).trans
    (congrArg (fun ps => { State.reset with phase := s.phase, pins := s.pins, cause := s.cause, out := s.out,
                                            pending := s.pending, ports := ps }) ports)

/-- A part in reset takes no frame (R183, R186). -/
theorem frameReady_inReset {s : State} (inReset : s.phase ≠ .running) : frameReady s = false := by
  simp only [frameReady, beq_eq_false_iff_ne.2 inReset, Bool.false_and]

theorem readFrame_inReset {s : State} (inReset : s.phase ≠ .running) (m : FrameMoment) (f : FrameBits) (code want : Nat)
    (snap : Snapshot) (act : Snapshot → State → State × ResultCode) : readFrame s m f code want snap act = .next s.quiet := by
  cases m with
  | opening => simp only [readFrame, frameReady_inReset inReset, Bool.false_eq_true, if_false]
  | resuming =>
    simp only [readFrame, inReset, and_false, if_false]
    split <;> rfl

theorem nextHas_of_eq {P : State → Prop} {o : Host.Outcome State Fault Refusal} {t : State} (h : o = .next t) (ht : P t) :
    NextHas P o := h ▸ nextHas_next ht

theorem lineResetEvent_resetHeld {s : State} (h : ResetHeld s) : ResetHeld (lineResetEvent s) := by
  unfold lineResetEvent
  split
  · exact inReset_resetHeld s _ _ _
  · rename_i phase
    exact h.moved (phase ▸ nofun) s.phase _ s.cause _ _
  · rename_i phase
    exact h.moved (phase ▸ nofun) s.phase s.pins s.cause _ _

theorem endOfResetEvent_resetHeld {s : State} (e : ResetEnd) (h : ResetHeld s) : ResetHeld (endOfResetEvent s e) := by
  unfold endOfResetEvent
  split
  · exact resetHeld_of_running ‹_›
  · rename_i phase
    split
    · exact resetHeld_of_running rfl
    · exact h.moved (phase ▸ nofun) _ _ _ _ _
  · rename_i phase
    split
    · exact resetHeld_of_running rfl
    · exact h.moved (phase ▸ nofun) s.phase s.pins s.cause _ _

/-- A command leaves a part held in reset with its reset values, or ends the reset. -/
theorem exec_inReset {s : State} (c : Instr) (h : ResetHeld s) (inReset : s.phase ≠ .running) :
    NextHas ResetHeld (exec c s) := by
  have notReady := frameReady_inReset inReset
  have quiet : ResetHeld s.quiet := h.moved inReset s.phase s.pins s.cause _ _
  cases c
  case requestPresented p r => exact nextHas_next (presentRequest_resetHeld quiet inReset p r)
  case issue ready =>
    exact nextHas_of_eq (whileRunning_inReset (s := withReady s ready) issueEvent inReset)
      (h.moved inReset s.phase _ s.cause _ _)
  case quiesceChange e =>
    exact nextHas_of_eq (whileRunning_inReset (s := withQuiesce s e) (quiesceEvent e) inReset)
      (h.moved inReset s.phase _ s.cause _ _)
  case powerOnReset => exact nextHas_next (inReset_resetHeld s _ _ _)
  case lineReset => exact nextHas_next (lineResetEvent_resetHeld h)
  case endOfReset e => exact nextHas_next (endOfResetEvent_resetHeld e h)
  case take | completion | tick | expiry | csNHighAfterReset =>
    exact nextHas_of_eq (whileRunning_inReset _ inReset) quiet
  case readEntry | popCapture => exact nextHas_of_eq (readFrame_inReset inReset _ _ _ _ _ _) quiet
  case badFrame => exact nextHas_of_eq (congrArg Host.Outcome.next (if_neg (by simp [notReady]))) quiet
  case writeEntry t f => exact nextHas_of_eq (tableFrame_notReady t.table f (fun _ _ => refuseWrite) notReady) quiet
  case writeGlobal | writePort | writeClass | writeMeter | meterLoad | writeRulePattern | writeRuleAction |
      writeEventMask =>
    exact nextHas_of_eq (tableFrame_notReady _ _ _ notReady) quiet
  all_goals exact nextHas_of_eq (commandFrame_notReady _ _ _ notReady) quiet

/-! #### A running part -/

/-- A part that runs goes on running. -/
def StaysRunning (s t : State) : Prop := s.phase = .running → t.phase = .running

theorem staysRunning_control : ControlRelation StaysRunning where
  looks h hs ht hrun := (congrArg Prod.fst ht).trans (h ((congrArg Prod.fst hs).symm.trans hrun))
  idle _ hrun := hrun
  discard _ hrun := hrun

theorem FreesFrom.phase {s t : State} (h : FreesFrom s t) : t.phase = s.phase := by
  obtain ⟨u, ds, leaves, -, rfl⟩ := h
  exact leaves.phase

/-- Only the two resets that last begin a reset of a part that runs (R184). -/
theorem controlEvent_staysRunning {c : Instr} {s t : State} (hp : c ≠ .powerOnReset) (hl : c ≠ .lineReset)
    (event : ControlEvent c s t) : StaysRunning s t := by
  intro hrun
  cases event with
  | take =>
    rcases takeEvent_cases s with idle | ⟨p, r, -, taken⟩
    · rwa [idle]
    · obtain ⟨u, leaves, noted⟩ := takeRequest_noted s p r
      rw [taken, noted]
      exact leaves.phase.trans hrun
  | completion _ τ status data =>
    rcases completionEvent_frees s τ status data with frees | ⟨u, leaves, -, noted⟩
    · exact frees.phase.trans hrun
    · rw [noted]
      exact leaves.phase.trans hrun
  | tick => exact (tickEvent_frees s).phase.trans hrun
  | expiry => exact (expiryEvent_frees s).phase.trans hrun
  | powerOnReset => exact absurd rfl hp
  | lineReset => exact absurd rfl hl
  | stayInReset _ e inReset => exact absurd hrun inReset
  | drain =>
    unfold drainAct
    split <;> exact hrun
  | governorReset | leaveReset => rfl
  | quiesce | writeGlobal | writePort | writeClass | writeMeter | meterLoad | clearEvents | release | setMode => exact hrun

theorem exec_resetHeld (c : Instr) {s : State} (h : ResetHeld s) : NextHas ResetHeld (exec c s) := by
  by_cases hrun : s.phase = .running
  · by_cases hp : c = .powerOnReset
    · subst hp
      exact nextHas_next (inReset_resetHeld s _ _ _)
    · by_cases hl : c = .lineReset
      · subst hl
        exact nextHas_next (lineResetEvent_resetHeld h)
      · intro t ht
        exact resetHeld_of_running
          (exec_control staysRunning_control c s (fun _ _ => controlEvent_staysRunning hp hl) t ht hrun)
  · exact exec_inReset c h hrun

theorem step_resetHeld {s : State} (h : ResetHeld s) : NextHas ResetHeld (step s) := by
  have noCommand (rest : List Instr) : ResetHeld { s with pending := rest } := fun inReset =>
    h.moved inReset s.phase s.pins s.cause s.out rest inReset
  cases hp : s.pending with
  | nil =>
    rw [step_nil hp]
    by_cases hrun : s.phase = .running
    · have tick (u v : State) : ControlEvent .tick u v → StaysRunning u v := controlEvent_staysRunning nofun nofun
      exact nextHas_next (resetHeld_of_running (refclkPeriod_control staysRunning_control s tick hrun))
    · rw [refclkPeriod_inReset hrun]
      exact nextHas_next (h.moved hrun s.phase s.pins s.cause _ _)
  | cons c rest => exact step_cons hp ▸ exec_resetHeld c (noCommand rest)

/-- Settles O60: a held part has nothing live, so the operating state START_HELD gives at its end agrees too. -/
theorem drainAndResetKept : Obligations.DrainAndResetKept := by
  intro s t held agrees hstep
  have nothingLive (inReset : s.phase ≠ .running) : s.loads.liveCount = 0 :=
    congrArg (fun u : State => u.loads.liveCount) (held inReset)
  exact ⟨step_resetHeld held t hstep,
    step_control keepsOpState_control s (fun _ _ _ => controlEvent_keepsOpState) t hstep nothingLive agrees⟩

/-! ### The latches one by one, and the lines -/

theorem hysteresis_iff (latch on off : Bool) :
    hysteresis latch on off = true ↔ (latch = false ∧ on = true) ∨ (latch = true ∧ ¬off = true) := by
  cases latch
  · simp [hysteresis_off]
  · simp [hysteresis_on]

theorem held_iff (s : State) (p : Fin 6) :
    held s p = true ↔
      (s.portRec[p].globalPart = true ∧ s.hold.glob = true) ∨ (s.portRec[p].holdEn = true ∧ s.hold.port[p] = true) ∨
        (s.portRec[p].paceEn = true ∧ s.hold.pace[p] = true) := by
  simp only [held, Bool.or_eq_true, Bool.and_eq_true, or_assoc]

/-- Settles O20: the latches an ENFORCE evaluation names go by their hysteresis, the others stay. -/
theorem latchHysteresis : Obligations.LatchHysteresis := by
  intro s g pp pc p C h
  refine ⟨fun bypass => congrArg State.hold (evalLatches_bypass g pp pc bypass), fun enforce => ?_, held_iff s p⟩
  have after : h = { glob := if g then evalGlobal s else s.hold.glob
                     port := .ofFn fun p => if pp p then evalPort s p else s.hold.port[p]
                     pace := .ofFn fun p => if pc p then evalPace s p else s.hold.pace[p] } :=
    latchesAfter_enforce enforce g pp pc
  have globIff := hysteresis_iff s.hold.glob (decide (s.glob.holdOn ≤ s.loads.totalLoad))
    (decide (s.loads.totalLoad ≤ s.glob.holdOff))
  have portIff := hysteresis_iff s.hold.port[p] (decide (s.portRec[p].holdOn ≤ s.loads.portLoad[p]))
    (decide (s.loads.portLoad[p] ≤ s.portRec[p].holdOff))
  have paceIff := hysteresis_iff s.hold.pace[p] (decide (C < s.portRec[p].paceOn)) (decide (s.portRec[p].paceOff ≤ C))
  simp only [decide_eq_true_eq] at globIff portIff paceIff
  rw [after]
  refine ⟨?_, ?_, ?_⟩
  · split
    · exact globIff
    · exact Iff.rfl
  · have port : (Vector.ofFn fun p => if pp p then evalPort s p else s.hold.port[p])[p] =
        if pp p then evalPort s p else s.hold.port[p] := by simp
    rw [port]
    split
    · exact portIff
    · exact Iff.rfl
  · have pace : (Vector.ofFn fun p => if pc p then evalPace s p else s.hold.pace[p])[p] =
        if pc p then evalPace s p else s.hold.pace[p] := by simp
    rw [pace]
    split
    · exact paceIff
    · exact Iff.rfl

theorem tagsStuck_iff (s : State) : tagsStuck s = true ↔ ∀ t : Fin 32, ∃ o, s.tags[t] = .orphan o := by
  have orphan (x : TagState) : x.isOrphan = true ↔ ∃ o, x = .orphan o := by cases x <;> simp [TagState.isOrphan]
  simp only [tagsStuck, List.all_eq_true, List.mem_finRange, true_imp_iff, orphan]

/-! The places of the mask: eight sticky events, then the two level flags (R162, R178). -/

theorem alertTerms_getLsbD (s : State) (i : Nat) :
    (alertTerms s).getLsbD i =
      ((if i < 8 then s.events.sticky.getLsbD i else (levelFlags s).getLsbD (i - 8)) &&
        (decide (i < 10) && !s.events.mask.getLsbD i)) := by
  rw [alertTerms, BitVec.getLsbD_and, BitVec.getLsbD_append, BitVec.getLsbD_not]

theorem levelFlags_getLsbD (s : State) :
    (levelFlags s).getLsbD 0 = captureReady s ∧ (levelFlags s).getLsbD 1 = tagsStuck s := by
  unfold levelFlags
  cases captureReady s <;> cases tagsStuck s <;> decide

theorem alertTerms_sticky (s : State) {i : Nat} (h : i < 8) :
    (alertTerms s).getLsbD i = (s.events.sticky.getLsbD i && !s.events.mask.getLsbD i) := by
  rw [alertTerms_getLsbD, if_pos h, decide_eq_true (by omega : i < 10), Bool.true_and]

theorem alertTerms_captureReady (s : State) :
    (alertTerms s).getLsbD 8 = (captureReady s && !s.events.mask.getLsbD 8) := by
  rw [alertTerms_getLsbD, ← (levelFlags_getLsbD s).1]
  rfl

theorem alertTerms_tagsStuck (s : State) : (alertTerms s).getLsbD 9 = (tagsStuck s && !s.events.mask.getLsbD 9) := by
  rw [alertTerms_getLsbD, ← (levelFlags_getLsbD s).2]
  rfl

theorem bitVec_ne_zero_iff {n : Nat} (v : BitVec n) : v ≠ 0#n ↔ ∃ i < n, v.getLsbD i = true := by
  constructor
  · intro h
    by_contra none
    refine h (BitVec.eq_of_getLsbD_eq fun i hi => ?_)
    rw [BitVec.getLsbD_zero, ← Bool.not_eq_true]
    exact fun set => none ⟨i, hi, set⟩
  · rintro ⟨i, -, set⟩ rfl
    simp at set

/-- The alert stands by a place of the mask that is clear (R162). -/
theorem alertTerms_iff (s : State) :
    alertTerms s ≠ 0#10 ↔
      (∃ i < 8, s.events.sticky.getLsbD i = true ∧ s.events.mask.getLsbD i = false) ∨
        (captureReady s = true ∧ s.events.mask.getLsbD 8 = false) ∨
        (tagsStuck s = true ∧ s.events.mask.getLsbD 9 = false) := by
  have unmasked (a b : Bool) : (a && !b) = true ↔ a = true ∧ b = false := by simp
  rw [bitVec_ne_zero_iff]
  constructor
  · rintro ⟨i, hi, set⟩
    rcases (by omega : i < 8 ∨ i = 8 ∨ i = 9) with sticky | rfl | rfl
    · exact .inl ⟨i, sticky, (unmasked _ _).1 (alertTerms_sticky s sticky ▸ set)⟩
    · exact .inr (.inl ((unmasked _ _).1 (alertTerms_captureReady s ▸ set)))
    · exact .inr (.inr ((unmasked _ _).1 (alertTerms_tagsStuck s ▸ set)))
  · rintro (⟨i, hi, set⟩ | set | set)
    · exact ⟨i, by omega, (alertTerms_sticky s hi).trans ((unmasked _ _).2 set)⟩
    · exact ⟨8, by decide, (alertTerms_captureReady s).trans ((unmasked _ _).2 set)⟩
    · exact ⟨9, by decide, (alertTerms_tagsStuck s).trans ((unmasked _ _).2 set)⟩

/-- Settles O42: the flags and lines by their definitions, the alert by its places. -/
theorem alertAndDrainedLines : Obligations.AlertAndDrainedLines := by
  intro s
  refine ⟨?_, tagsStuck_iff s, ?_, ?_⟩
  · simp [captureReady]
  · rw [alertLine, Bool.and_eq_true, beq_iff_eq, bne_iff_ne, alertTerms_iff]
  · simp [drainedLine]

/-! ### The end of a reset -/

theorem leaveReset_eq (s : State) (e : ResetEnd) :
    leaveReset s e =
      { s with
        out := s.quietOut
        phase := .running
        pins := { s.pins with resetNHigh := true, startHeld := e.startHeld }
        ports := .ofFn fun p =>
          let c := if e.stillPresenting.getLsbD p.val then s.ports[p].channel else none
          { s.ports[p] with channel := c, slot := c }
        tickCounter := 0
        drain := if e.startHeld then ⟨.bypass, .drained, true, false⟩ else ⟨.bypass, .running, false, false⟩
        mgmt := { s.mgmt with awaitCsHigh := e.csNLow } } := rfl

theorem exec_endOfReset (s : State) (e : ResetEnd) : exec (.endOfReset e) s = .next (endOfResetEvent s e) := rfl

theorem endOfResetEvent_running {s : State} (e : ResetEnd) (h : s.phase = .running) : endOfResetEvent s e = s.quiet := by
  simp only [endOfResetEvent, h]

theorem endOfResetEvent_leaves {s : State} {e : ResetEnd} (h : s.phase ≠ .running) (high : e.resetNHigh = true) :
    endOfResetEvent s e = leaveReset s e := by
  cases phase : s.phase with
  | running => exact absurd phase h
  | powerOnReset | lineReset => simp only [endOfResetEvent, phase, high, if_true]

theorem endOfResetEvent_stays {s : State} {e : ResetEnd} (h : s.phase = .lineReset) (low : e.resetNHigh = false) :
    endOfResetEvent s e = s.quiet := by
  simp only [endOfResetEvent, h, low, Bool.false_eq_true, if_false]

/-- Settles O36: by the phase and the level of RESET_N. -/
theorem endOfResetCommands : Obligations.EndOfResetCommands := by
  intro s e left
  refine ⟨fun inReset high => ?_, fun phase low => ?_, fun phase low => ?_, fun hrun => ?_, fun hrun => ?_, fun inReset => ?_⟩
  · rw [exec_endOfReset, endOfResetEvent_leaves inReset high, leaveReset_eq]
  · rw [exec_endOfReset]
    simp only [endOfResetEvent, phase, low]
    rfl
  · rw [exec_endOfReset, endOfResetEvent_stays phase low]
    rfl
  · rw [exec_endOfReset, endOfResetEvent_running e hrun]
    rfl
  · exact whileRunning_running csHighEvent hrun
  · exact whileRunning_inReset csHighEvent inReset

/-! ### DRAIN, RELEASE and QUIESCE -/

section Requests
variable {s : State} {cmd ln : Bool} (agrees : OpStateAgrees s)
include agrees

/-- With the last request gone the part runs (R95). -/
theorem setRequests_none :
    setRequests s false false = { s with drain := { s.drain with opState := .running, command := false, line := false } } := by
  rw [setRequests, opStateWith_eq agrees.running_iff]
  simp [stickyWith_false]

/-- Requests that find the part stopping leave its state (R95). -/
theorem setRequests_stopped (made : (cmd || ln) = true) (stopped : s.drain.opState ≠ .running) :
    setRequests s cmd ln = { s with drain := { s.drain with command := cmd, line := ln } } := by
  have requested : s.drain.requested = true := by
    rw [← Bool.not_eq_false]
    exact mt agrees.running_iff.2 stopped
  rw [setRequests, opStateWith_eq agrees.running_iff, made, requested]
  simp [stickyWith_false, stopped]

/-- Requests that find the part RUNNING with live transactions begin a drain (R95). -/
theorem setRequests_begin (made : (cmd || ln) = true) (running : s.drain.opState = .running)
    (live : s.loads.liveCount ≠ 0) :
    setRequests s cmd ln = { s with drain := { s.drain with opState := .draining, command := cmd, line := ln } } := by
  rw [setRequests, opStateWith_eq agrees.running_iff, made]
  simp [stickyWith_false, running, live]

/-- Requests that find the part RUNNING with nothing live complete the drain at once (R95). -/
theorem setRequests_complete (made : (cmd || ln) = true) (running : s.drain.opState = .running)
    (live : s.loads.liveCount = 0) :
    setRequests s cmd ln =
      { s with
        drain := { s.drain with opState := .drained, command := cmd, line := ln }
        events := { s.events with sticky := s.events.sticky ||| Sticky.drainDone.bit } } := by
  rw [setRequests, opStateWith_eq agrees.running_iff, made, agrees.running_iff.1 running]
  simp [stickyWith_true, running, live]

end Requests

theorem drainAct_running {s : State} (h : s.drain.opState = .running) :
    drainAct s = (setRequests s true s.drain.line, .done) := if_pos h

theorem drainAct_stopped {s : State} (h : s.drain.opState ≠ .running) : drainAct s = (s, .busy) := if_neg h

theorem releaseAct_stays {s : State} (line : s.drain.line = true) (level : s.glob.quiesceMode = .levelLow) :
    releaseAct s = (setRequests s false s.drain.line, .busy) := by
  simp [releaseAct, lineAfterRelease, line, level]

theorem releaseAct_goes {s : State} (h : s.drain.line = false ∨ s.glob.quiesceMode ≠ .levelLow) :
    releaseAct s = (setRequests s false false, .done) := by
  have gone : lineAfterRelease s = false := by
    rcases h with line | level
    · simp [lineAfterRelease, line]
    · simp [lineAfterRelease, level]
  simp [releaseAct, gone]

/-- Settles O22: the requests each command leaves, and where they find the part. -/
theorem drainAndRelease : Obligations.DrainAndRelease := by
  intro f s agrees hready hend
  have atEnd : OpStateAgrees (atFrameEnd s f 1) := agrees
  refine ⟨fun running live => ?_, fun running live => ?_, fun stopped => ?_, fun line level => ?_, fun h => ?_⟩
  · have begun := drainAct_running (s := atFrameEnd s f 1) running
    rw [setRequests_begin atEnd rfl running live] at begun
    exact commandFrame_ends (c := .drain) hready hend begun
  · have complete := drainAct_running (s := atFrameEnd s f 1) running
    rw [setRequests_complete atEnd rfl running live] at complete
    exact commandFrame_ends (c := .drain) hready hend complete
  · exact commandFrame_ends (c := .drain) hready hend (drainAct_stopped stopped)
  · have stopped : s.drain.opState ≠ .running := fun running => by
      have none := agrees.running_iff.1 running
      simp [Drain.requested, line] at none
    have stays := releaseAct_stays (s := atFrameEnd s f 1) line level
    rw [setRequests_stopped (cmd := false) (ln := (atFrameEnd s f 1).drain.line) atEnd line stopped] at stays
    exact commandFrame_ends (c := .release) hready hend stays
  · have goes := releaseAct_goes (s := atFrameEnd s f 1) h
    rw [setRequests_none atEnd] at goes
    exact commandFrame_ends (c := .release) hready hend goes

theorem exec_quiesceChange_running {s : State} (e : Edge) (h : s.phase = .running) :
    exec (.quiesceChange e) s = .next (quiesceEvent e (withQuiesce s e).quiet) :=
  whileRunning_running (s := withQuiesce s e) (quiesceEvent e) h

/-- Settles O23: LINE after the edge by R98, and where the set finds the part. -/
theorem quiesceEdge : Obligations.QuiesceEdge := by
  intro e s agrees level line' moved
  have atEdge : OpStateAgrees (withQuiesce s e).quiet := agrees
  have lineMoves : lineAfter s.glob.quiesceMode e s.drain.line = line' := by
    simp only [line']
    cases s.glob.quiesceMode <;> cases e <;> rfl
  have effect : quiesceEvent e (withQuiesce s e).quiet = setRequests (withQuiesce s e).quiet s.drain.command line' := by
    rw [← lineMoves]
    rfl
  refine ⟨fun inReset => whileRunning_inReset (s := withQuiesce s e) (quiesceEvent e) inReset, fun hrun => ?_⟩
  rw [exec_quiesceChange_running e hrun, effect]
  refine ⟨fun same => ?_, fun on running live => ?_, fun on running live => ?_, fun on stopped => ?_,
    fun off command => ?_, fun off command => ?_⟩
  · rw [same]
    exact congrArg Host.Outcome.next (setRequests_same (withQuiesce s e).quiet)
  · rw [on, setRequests_begin atEdge (Bool.or_true _) running live]
    rfl
  · rw [on, setRequests_complete atEdge (Bool.or_true _) running live]
    rfl
  · rw [on, setRequests_stopped atEdge (Bool.or_true _) stopped]
    rfl
  · have stopped : s.drain.opState ≠ .running := fun running => by
      have none := agrees.running_iff.1 running
      simp [Drain.requested, command] at none
    rw [off, command, setRequests_stopped atEdge rfl stopped, ← command]
    rfl
  · rw [off, command, setRequests_none atEdge, ← command]
    rfl

/-! ### SET_MODE -/

theorem modeOf_modeByte (m : Mode) : modeOf (modeByte m) = some m := by cases m <;> rfl

theorem setModeAct_noMode {f : FrameBits} (s : State) (h0 : byteAt f.bytes 2 ≠ 0x00#8) (h1 : byteAt f.bytes 2 ≠ 0x01#8) :
    setModeAct f s = (s, .refused) := by
  simp only [setModeAct, modeOf, h0, h1, if_false]

section SetMode
variable {f : FrameBits} {s : State} {m : Mode} (hm : byteAt f.bytes 2 = modeByte m)
include hm

theorem setModeAct_busy (h : s.drain.opState ≠ .drained) : setModeAct f s = (s, .busy) := by
  simp only [setModeAct, hm, modeOf_modeByte, h, if_false]

theorem setModeAct_same (h : s.drain.opState = .drained) (same : s.drain.mode = m) : setModeAct f s = (s, .done) := by
  simp only [setModeAct, hm, modeOf_modeByte, h, same, if_true]

theorem setModeAct_changes (h : s.drain.opState = .drained) (other : s.drain.mode ≠ m) :
    setModeAct f s = (changeMode s m, .done) := by
  simp only [setModeAct, hm, modeOf_modeByte, h, Ne.symm other, if_true, if_false]

end SetMode

/-- The latches after a change of mode: OFF on the way to BYPASS, evaluated from OFF on the way to ENFORCE (R92). -/
def holdAfterMode (s : State) (m : Mode) : HoldLatches :=
  match m with
  | .bypass => .reset
  | .enforce => latchesAfter { s with drain := { s.drain with mode := .enforce }, hold := .reset } true (fun _ => true)
      fun _ => true

theorem changeMode_eq (s : State) (m : Mode) :
    changeMode s m =
      { s with
        drain := { s.drain with mode := m }
        hold := holdAfterMode s m
        events := { s.events with
          sticky := stickyWith s.events.sticky (heldMoves s (holdAfterMode s m)) .holdChange } } := by
  cases m <;> rfl

/-- Settles O24: by the byte, the operating state and the mode. -/
theorem setModeCommand : Obligations.SetModeCommand := by
  intro f s m hready hend
  refine ⟨fun h0 h1 => ?_, fun hm busy => ?_, fun hm drained same => ?_, fun hm drained other => ?_⟩
  · exact commandFrame_ends (c := .setMode) hready hend (setModeAct_noMode _ h0 h1)
  · exact commandFrame_ends (c := .setMode) hready hend (setModeAct_busy hm busy)
  · exact commandFrame_ends (c := .setMode) hready hend (setModeAct_same hm drained same)
  · have changes := setModeAct_changes (s := atFrameEnd s f 1) hm drained other
    rw [changeMode_eq] at changes
    refine (commandFrame_ends (c := .setMode) hready hend changes).trans ?_
    cases m <;> rfl

/-! ### WRITE_PORT -/

theorem writePortEntry_passes {d : List Byte} (s : State) (p : Fin 6) (hok : portOk d = true) :
    writePortEntry (BitVec.ofNat 8 p.val) d s = (applyPort s p (portOf d), .done) := by
  simp only [writePortEntry, indexBelow_ofNat (by decide : 6 ≤ 256) p, hok, if_true]

theorem writePortEntry_refused {b : Byte} {d : List Byte} (s : State) (h : 6 ≤ b.toNat ∨ portOk d = false) :
    writePortEntry b d s = (s, .refused) := by
  unfold writePortEntry
  split
  · rfl
  · rename_i p hp
    rcases h with hrange | hfails
    · rw [indexBelow_outOfRange hrange] at hp
      cases hp
    · rw [hfails]
      rfl

/-- Settles O47: a passing entry ends in `applyPort`, any other leaves the state. -/
theorem writePortFrame : Obligations.WritePortFrame := by
  intro f s hready hend d
  refine ⟨fun p hindex hok => ?_, fun h => ?_, portOf_legal⟩
  · have passes := writePortEntry_passes (atFrameEnd s f 2) p hok
    rw [← hindex] at passes
    exact tableFrame_ends (t := .port) hready hend passes
  · exact tableFrame_ends (t := .port) hready hend (writePortEntry_refused _ h)

/-! ### A tick and its expiries -/

theorem countEach_withReports {v u : State} (h : v.glob = u.glob) (gs : List (Fin 24)) (c : Counter) :
    countEach (withReports v u) gs c = withReports v (countEach u gs c) := by
  induction gs generalizing u with
  | nil => rfl
  | cons g gs ih =>
    simp only [countEach, List.foldl_cons] at ih ⊢
    rw [count_withReports h, ih (u := count u g c 1) h]

theorem countEach_captures (s : State) (gs : List (Fin 24)) (c : Counter) : (countEach s gs c).captures = s.captures := by
  induction gs generalizing s with
  | nil => rfl
  | cons g gs ih => exact ih (count s g c 1)

/-- The evaluation of an event looks at the latches, the mode, the settings and the watched quantities alone (R88, R90). -/
theorem latchesAfter_congr {s t : State} (h : latchPart t = latchPart s) (g : Bool) (pp pc : Fin 6 → Bool) :
    latchesAfter t g pp pc = latchesAfter s g pp pc := by
  simp only [latchPart, Prod.mk.injEq] at h
  obtain ⟨mode, hold, loads, glob, portRec, meters⟩ := h
  simp only [latchesAfter, evalGlobal, evalPort, evalPace, mode, hold, loads, glob, portRec, meters]

theorem holdAfterFreeing_congr {s t : State} (h : latchPart t = latchPart s) (records : t.classRec = s.classRec)
    (ds : List Descriptor) : holdAfterFreeing t ds = holdAfterFreeing s ds := by
  simp only [latchPart, Prod.mk.injEq] at h
  obtain ⟨mode, hold, loads, glob, portRec, meters⟩ := h
  refine latchesAfter_congr ?_ _ _ _
  simp only [latchPart, mode, hold, loads, glob, portRec, meters, records]

/-- A freeing and what it hands on, field by field, in a state with the table, the loads and the drain of `s` (R63, R90, R95). -/
theorem handOn_freed {s x : State} {ds : List Descriptor} {latches : HoldLatches}
    (hold : holdAfterFreeing x ds = latches) (loads : x.loads = s.loads) (records : x.classRec = s.classRec)
    (store : x.writeStore = s.writeStore) (ports : x.ports = s.ports) (drain : x.drain = s.drain) :
    handOn (freeDescriptors x ds) ds =
      { x with
        loads := s.loads.free s.classRec ds
        writeStore := storeAfterFreeing s ds
        ports := portsAfterFreeing s ds
        hold := latches
        drain := { s.drain with
          opState := opStateAfterFreeing s.drain.opState (s.loads.free s.classRec ds).liveCount }
        events := { x.events with
          sticky := stickyWith x.events.sticky
            (decide (s.drain.opState ≠ opStateAfterFreeing s.drain.opState (s.loads.free s.classRec ds).liveCount))
            .drainDone } } := by
  rw [handOn, endDrain, opStateAfterFreeing_eq, drainComplete_eq, ← hold, ← loads, ← records, ← drain,
    storeAfterFreeing, portsAfterFreeing, ← store, ← ports]
  rfl

/-- The part at a tick with the meters refilled and the counts down, before the expiries (R43). -/
def tickedDown (s : State) : State := countDownAll (refillMeters { s.quiet with tickCounter := 0 })

/-- The part at a tick as its expiries find it: the counter restarted, no answer given yet, and these blocks moved. -/
def atExpiries (s : State) (meters : Vector Meter 16) (hold : HoldLatches) (queues : Vector (List Descriptor) 8)
    (sched : Sched) (tags : Vector TagState 32) : State :=
  { s.quiet with tickCounter := 0, meters := meters, hold := hold, queues := queues, sched := sched, tags := tags }

/-- The state after the descriptors `ds` of a tick have expired from `x`, with the reports of `s` before it (R112, R116, R130 to
R133). -/
def withExpired (s x : State) (ds : List Descriptor) (latches : HoldLatches) : State :=
  let u := countEach s (ds.map Descriptor.group) .faulted
  let loads := s.loads.free s.classRec ds
  let op := opStateAfterFreeing s.drain.opState loads.liveCount
  { x with
    loads := loads
    writeStore := storeAfterFreeing s ds
    ports := portsAfterFreeing s ds
    hold := latches
    drain := { s.drain with opState := op }
    counters := u.counters
    captures := u.captures
    events := { u.events with
      sticky := stickyWith (stickyWith (stickyWith u.events.sticky (!ds.isEmpty) .expired)
        (decide (s.drain.opState ≠ op)) .drainDone) (heldMoves s latches) .holdChange }
    out := { s.quietOut with responses := .ofFn fun p => runOfResponses ds (.fault .expired) p } }

/-- The state after a tick on `s` at which the descriptors `ds` expire (R43). -/
def afterTick (s : State) (ds : List Descriptor) : State :=
  withExpired s (dropExpired (tickedDown s)) ds (holdAfterFreeing (tickedDown s) ds)

section Expiries
variable (s : State) (meters : Vector Meter 16) (hold : HoldLatches) (queues : Vector (List Descriptor) 8) (sched : Sched)
  (tags : Vector TagState 32) (ds : List Descriptor)

/-- The descriptors of a tick are answered on channels where nothing stands, and counted (R133). -/
theorem expiries_answered :
    countEach (respondAll (atExpiries s meters hold queues sched tags) ds (.fault .expired)) (ds.map Descriptor.group)
        .faulted =
      withReports
        { atExpiries s meters hold queues sched tags with
          out := { s.quietOut with responses := .ofFn fun p => runOfResponses ds (.fault .expired) p } }
        (countEach s (ds.map Descriptor.group) .faulted) := by
  have out : (respondAll (atExpiries s meters hold queues sched tags) ds (.fault .expired)).out =
      { s.quietOut with responses := .ofFn fun p => runOfResponses ds (.fault .expired) p } := by
    simp only [respondAll_out, atExpiries, quiet_out, quiet_responses, List.nil_append]
  rw [← out]
  exact countEach_withReports (v := respondAll (atExpiries s meters hold queues sched tags) ds (.fault .expired))
    (u := s) rfl _ _

theorem expiries_eq {latches : HoldLatches}
    (freed : holdAfterFreeing ((countEach (respondAll (atExpiries s meters hold queues sched tags) ds (.fault .expired))
      (ds.map Descriptor.group) .faulted).raiseIf (!ds.isEmpty) .expired) ds = latches) :
    noteHold s.quiet (handOn (freeDescriptors
        ((countEach (respondAll (atExpiries s meters hold queues sched tags) ds (.fault .expired))
          (ds.map Descriptor.group) .faulted).raiseIf (!ds.isEmpty) .expired) ds) ds) =
      withExpired s (atExpiries s meters hold queues sched tags) ds latches := by
  rw [expiries_answered] at freed ⊢
  rw [handOn_freed (s := s) freed rfl rfl rfl rfl rfl]
  rfl

end Expiries

/-- The answers, counts and EXPIRED of an expiry leave what a freeing evaluates. -/
theorem holdAfterFreeing_answered (s : State) (ds : List Descriptor) (gs : List (Fin 24)) (b : Bool) :
    holdAfterFreeing ((countEach (respondAll (dropExpired s) ds (.fault .expired)) gs .faulted).raiseIf b .expired) ds =
      holdAfterFreeing s ds := by
  have latches := latchPart_countEach (respondAll (dropExpired s) ds (.fault .expired)) gs .faulted
  obtain ⟨-, records, -, -⟩ := loadedPart_eq
    (loadedPart_countEach (respondAll (dropExpired s) ds (.fault .expired)) gs .faulted)
  have answered : latchPart (respondAll (dropExpired s) ds (.fault .expired)) = latchPart s := rfl
  exact holdAfterFreeing_congr ((latchPart_raiseIf _ _ _).trans (latches.trans answered)) records ds

theorem tickEvent_eq (s : State) : tickEvent s.quiet = afterTick s (expiring (tickedDown s)) := by
  have event : tickEvent s.quiet = noteHold s.quiet (expireAll (tickedDown s)) := rfl
  have dropped : dropExpired (tickedDown s) = atExpiries s (tickedDown s).meters (tickedDown s).hold
      (dropExpired (tickedDown s)).queues (dropExpired (tickedDown s)).sched (dropExpired (tickedDown s)).tags := rfl
  have freed := holdAfterFreeing_answered (tickedDown s) (expiring (tickedDown s))
    ((expiring (tickedDown s)).map Descriptor.group) (!(expiring (tickedDown s)).isEmpty)
  rw [event, expireAll, afterTick]
  rw [dropped] at freed ⊢
  exact expiries_eq s _ _ _ _ _ _ freed

/-! #### The descriptors at a tick -/

section NoneRanOut
variable {l : List Descriptor} (fresh : ∀ d ∈ l, d.ranOut = false)
include fresh

/-- Those that expire at a tick are those whose count was 1 (R130). -/
theorem countDown_expiring :
    (l.map Descriptor.countDown).filter Descriptor.ranOut =
      (l.filter fun d => d.deadline == 1).map fun d => { d with deadline := d.deadline - 1, ranOut := true } := by
  induction l with
  | nil => rfl
  | cons d l ih =>
    have hd := fresh d List.mem_cons_self
    have rest := ih fun e he => fresh e (List.mem_cons_of_mem d he)
    rw [List.map_cons, List.filter_cons, List.filter_cons, rest]
    by_cases h0 : d.deadline = 0
    · simp [Descriptor.countDown, h0, hd]
    · by_cases h1 : d.deadline = 1
      · simp [Descriptor.countDown, h1]
      · simp [Descriptor.countDown, h0, h1, hd]

/-- The others stay, counted down where they have a deadline (R130). -/
theorem countDown_staying :
    ((l.map Descriptor.countDown).filter fun d => !d.ranOut) =
      (l.filter fun d => d.deadline != 1).map fun d => if d.deadline = 0 then d else { d with deadline := d.deadline - 1 } := by
  induction l with
  | nil => rfl
  | cons d l ih =>
    have hd := fresh d List.mem_cons_self
    have rest := ih fun e he => fresh e (List.mem_cons_of_mem d he)
    rw [List.map_cons, List.filter_cons, List.filter_cons, rest]
    by_cases h0 : d.deadline = 0
    · simp [Descriptor.countDown, h0, hd]
    · by_cases h1 : d.deadline = 1
      · simp [Descriptor.countDown, h1]
      · cases d
        simp_all [Descriptor.countDown]

end NoneRanOut

theorem liveDescriptors_tickedDown (s : State) :
    liveDescriptors (tickedDown s) = (liveDescriptors s).map Descriptor.countDown :=
  liveDescriptors_countDownAll _

theorem tickedDown_queue (s : State) (k : Fin 8) :
    (tickedDown s).queues[k] = s.queues[k].map Descriptor.countDown := by
  simp [tickedDown]

theorem tickedDown_tag (s : State) (i : Fin 32) : (tickedDown s).tags[i] = s.tags[i].countDown := by
  simp [tickedDown]

theorem afterTick_dropped (s : State) (ds : List Descriptor) (k : Fin 8) :
    (afterTick s ds).queues[k] = (tickedDown s).queues[k].filter fun d => !d.ranOut := by
  simp [afterTick, withExpired]

section Tick
variable {s : State} (fresh : NoneRanOut s)
include fresh

theorem afterTick_queue (ds : List Descriptor) (k : Fin 8) :
    (afterTick s ds).queues[k] =
      (s.queues[k].filter fun d => d.deadline != 1).map fun d =>
        if d.deadline = 0 then d else { d with deadline := d.deadline - 1 } := by
  rw [afterTick_dropped, tickedDown_queue, countDown_staying fun d hd => fresh d (mem_liveDescriptors.2 (.inl ⟨k, hd⟩))]

/-- A BUSY tag whose descriptor's count was 1 becomes ORPHAN; the others keep what they have, counted down (R130, R132). -/
theorem afterTick_tag (ds : List Descriptor) (i : Fin 32) :
    (afterTick s ds).tags[i] =
      match s.tags[i] with
      | .free => .free
      | .orphan o => .orphan o
      | .busy d =>
        if d.deadline = 1 then .orphan (d.orphaned .expired)
        else .busy (if d.deadline = 0 then d else { d with deadline := d.deadline - 1 }) := by
  have moved : (afterTick s ds).tags[i] = s.tags[i].countDown.expire := by
    rw [← tickedDown_tag]
    simp [afterTick, withExpired]
  rw [moved]
  cases htag : s.tags[i] with
  | free => rfl
  | orphan o => rfl
  | busy d =>
    have hd : d.ranOut = false := fresh d (mem_liveDescriptors.2 (.inr ⟨i, by simp [htag, TagState.bound]⟩))
    by_cases h0 : d.deadline = 0
    · simp [TagState.countDown, TagState.expire, Descriptor.countDown, h0, hd]
    · by_cases h1 : d.deadline = 1
      · simp [TagState.countDown, TagState.expire, Descriptor.countDown, Descriptor.orphaned, h1]
      · simp [TagState.countDown, TagState.expire, Descriptor.countDown, h0, h1, hd]

end Tick

/-- A queue that expiries emptied loses its deficit (R112, R116). -/
theorem afterTick_deficit (s : State) (ds : List Descriptor) (k : Fin 8) :
    (afterTick s ds).sched.deficit[k] =
      if s.queues[k] ≠ [] ∧ (afterTick s ds).queues[k] = [] then 0 else s.sched.deficit[k] := by
  have deficit : (afterTick s ds).sched.deficit[k] = deficitAfterExpiry (tickedDown s) k := by
    simp [afterTick, withExpired]
  have emptied : (afterTick s ds).queues[k] = [] ↔ (tickedDown s).queues[k].all Descriptor.ranOut = true := by
    rw [afterTick_dropped]
    simp
  have before : (!(tickedDown s).queues[k].isEmpty) = true ↔ s.queues[k] ≠ [] := by
    rw [tickedDown_queue]
    simp
  rw [deficit, deficitAfterExpiry]
  simp only [Bool.and_eq_true, before, emptied]
  rfl

/-- Pace latches evaluated before the loads move, and the others after it, are one evaluation (log 12). -/
theorem latchesAfter_paced (s : State) (loads : Loads) (g : Bool) (pp : Fin 6 → Bool) :
    latchesAfter { evalLatches s false (fun _ => false) (fun _ => true) with loads := loads } g pp (fun _ => false) =
      latchesAfter { s with loads := loads } g pp fun _ => true := by
  cases mode : s.drain.mode with
  | bypass =>
    rw [evalLatches_bypass _ _ _ mode]
    simp only [latchesAfter, mode, reduceCtorEq, if_false]
  | enforce =>
    rw [latchesAfter_enforce (s := { s with loads := loads }) mode,
      latchesAfter_enforce (s := { evalLatches s _ _ _ with loads := loads }) mode]
    simp [evalLatches, latchesAfter_enforce mode, evalGlobal, evalPort, evalPace]

theorem afterTick_hold (s : State) (ds : List Descriptor) :
    (afterTick s ds).hold =
      latchesAfter { s with meters := (afterTick s ds).meters, loads := (afterTick s ds).loads } (!ds.isEmpty)
        (fun p => ds.any fun d => d.port == p) fun _ => true :=
  latchesAfter_paced { s with meters := (afterTick s ds).meters } (afterTick s ds).loads _ _

/-- Settles O33: a tick is its refill, its countdown and its expiries in one event. -/
theorem tickCountsDownAndExpires : Obligations.TickCountsDownAndExpires := by
  intro s hrun fresh lowered after ds u
  have expired : expiring (tickedDown s) = ds := by
    rw [expiring, liveDescriptors_tickedDown]
    exact countDown_expiring fresh
  refine ⟨afterTick s ds, ?_, afterTick_queue fresh ds, afterTick_tag fresh ds, rfl, rfl, rfl, afterTick_hold s ds, rfl,
    rfl, rfl, rfl, afterTick_deficit s ds, rfl, ?_⟩
  · rw [exec_tick hrun, tickEvent_eq, expired]
  · have captures : (afterTick s ds).captures = s.captures := countEach_captures s _ _
    rw [← captures]
    rfl

end Sys2Proof.Machine
end

section
/-! PROOFS. Class queues and the Memory Scheduler: the class an issue chooses with the visits of the weighted round (O27), what
an issue hands over (O26), and the deficits and the pointer after a weighted issue (O28). -/

namespace Sys2Proof.Machine

/-! ### The lowest-numbered that passes a test -/

/-- The first of all numbers below `n` that passes a test is the lowest that does. -/
theorem find_finRange {n : Nat} (f : Fin n → Bool) (k : Fin n) :
    (List.finRange n).find? f = some k ↔ f k = true ∧ ∀ j < k, f j = false := by
  rw [← Fin.find?_eq_find?_finRange, Fin.find?_eq_some_iff]

theorem lowestFreeTag_eq_some {s : State} {t : Fin 32} :
    lowestFreeTag s = some t ↔ s.tags[t].isFree = true ∧ ∀ u < t, s.tags[u].isFree = false :=
  find_finRange (fun t : Fin 32 => s.tags[t].isFree) t

/-- Class `k` has work and the scheduling mode `m` (R104, R109). -/
def Works (s : State) (m : SchedMode) (k : Fin 8) : Prop := s.classRec[k].mode = m ∧ s.queues[k] ≠ []

theorem hasWork_eq_true {s : State} {m : SchedMode} {k : Fin 8} : hasWork s m k = true ↔ Works s m k := hasWork_iff s m k

theorem hasWork_eq_false {s : State} {m : SchedMode} {k : Fin 8} : hasWork s m k = false ↔ ¬Works s m k := by
  rw [← hasWork_eq_true, Bool.not_eq_true]

theorem lowest_hasWork {s : State} {m : SchedMode} {k : Fin 8} (work : Works s m k) (lowest : ∀ j < k, ¬Works s m j) :
    (List.finRange 8).find? (hasWork s m) = some k :=
  (find_finRange _ k).2 ⟨hasWork_eq_true.2 work, fun j hj => hasWork_eq_false.2 (lowest j hj)⟩

theorem none_hasWork {s : State} {m : SchedMode} (idle : ∀ k, ¬Works s m k) :
    (List.finRange 8).find? (hasWork s m) = none :=
  List.find?_eq_none.2 fun k _ => (hasWork_eq_true.not).2 (idle k)

/-! ### The three ranks of the scheduler (R109) -/

section Ranks
variable {s : State}

theorem chooseClass_strictHigh {k : Fin 8} (work : Works s .strictHigh k) (lowest : ∀ j < k, ¬Works s .strictHigh j) :
    chooseClass s = some (k, s.sched) := by
  simp only [chooseClass, lowest_hasWork work lowest]

theorem chooseClass_weighted {k : Fin 8} {r : Round} (noHigh : ∀ k, ¬Works s .strictHigh k) (work : Works s .weighted k)
    (round : weightedRound s = some r) : chooseClass s = some (r.cls, afterWeighted s r) := by
  have found : ((List.finRange 8).find? (hasWork s .weighted)).isSome :=
    List.find?_isSome.2 ⟨k, List.mem_finRange k, hasWork_eq_true.2 work⟩
  obtain ⟨j, hj⟩ := Option.isSome_iff_exists.1 found
  simp only [chooseClass, none_hasWork noHigh, hj, round, Option.map_some]

theorem chooseClass_strictLow {k : Fin 8} (noHigh : ∀ k, ¬Works s .strictHigh k) (noWeighted : ∀ k, ¬Works s .weighted k)
    (work : Works s .strictLow k) (lowest : ∀ j < k, ¬Works s .strictLow j) : chooseClass s = some (k, s.sched) := by
  simp only [chooseClass, none_hasWork noHigh, none_hasWork noWeighted, lowest_hasWork work lowest, Option.map_some]

end Ranks

/-! ### What a finished round says (R110) -/

section Rounds
variable {s : State} {ptr : Fin 8} {deficit : Vector Nat 8} {r : Round}

/-- A round ends at a WEIGHTED class with work whose deficit covers its head. -/
theorem RoundFrom.covers (h : RoundFrom s ptr deficit r) :
    Works s .weighted r.cls ∧ headLoad s r.cls ≤ r.deficit[r.cls] := by
  induction h with
  | chosen ptr k deficit d rest first hq covered => exact ⟨first.1, (headLoad_cons hq).trans_le covered⟩
  | passed _ _ _ _ _ _ _ _ _ _ ih => exact ih

/-- The visits of a round only add to deficits. -/
theorem RoundFrom.deficit_le (h : RoundFrom s ptr deficit r) (j : Fin 8) : deficit[j] ≤ r.deficit[j] := by
  induction h with
  | chosen => exact le_rfl
  | passed ptr k deficit d rest r first hq short _ ih =>
    refine le_trans ?_ ih
    rw [getElem_set_fin]
    split
    · subst ‹k = j›
      exact Nat.le_add_right _ _
    · exact le_rfl

/-- A round adds to the deficits of WEIGHTED classes with work alone. -/
theorem RoundFrom.deficit_idle (h : RoundFrom s ptr deficit r) {j : Fin 8} (idle : ¬Works s .weighted j) :
    r.deficit[j] = deficit[j] := by
  induction h with
  | chosen => rfl
  | passed ptr k deficit d rest r first hq short _ ih =>
    have other : k ≠ j := fun same => idle (same ▸ first.1)
    rw [ih, getElem_set_fin, if_neg other]

end Rounds

/-! ### Every round ends (R110; log 14)

Each unsuccessful visit brings some class at least one beat nearer to its head's load, and the eight heads together ask for at
most 128 beats. -/

theorem mem_classesFrom (ptr k : Fin 8) : k ∈ classesFrom ptr := by
  revert ptr k
  decide

/-- Where some WEIGHTED class has work, a visit finds one. -/
theorem exists_firstInRound {s : State} {k : Fin 8} (work : Works s .weighted k) (ptr : Fin 8) :
    ∃ j, FirstInRound s ptr j := by
  have found : ((classesFrom ptr).find? (hasWork s .weighted)).isSome :=
    List.find?_isSome.2 ⟨k, mem_classesFrom ptr k, hasWork_eq_true.2 work⟩
  obtain ⟨j, hj⟩ := Option.isSome_iff_exists.1 found
  exact ⟨j, (find_firstInRound s ptr j).1 hj⟩

/-- What one visit does (R110, steps 1 to 3). -/
theorem visits_succ {s : State} {ptr k : Fin 8} (first : FirstInRound s ptr k) (n : Nat) (deficit : Vector Nat 8) :
    visits s (n + 1) ptr deficit =
      if headLoad s k ≤ deficit[k] then some ⟨k, deficit⟩
      else visits s n (k + 1) (deficit.set k (deficit[k] + s.classRec[k].weight)) := by
  simp only [visits, (find_firstInRound s ptr k).2 first]

theorem headLoad_le (s : State) (k : Fin 8) : headLoad s k ≤ 16 := by
  cases hq : s.queues[k] with
  | nil => simp [headLoad, hq]
  | cons d rest => exact (headLoad_cons hq).trans_le d.beats_le

/-- The beats by which the deficits of all classes together fall short of their heads. -/
def shortfall (s : State) (deficit : Vector Nat 8) : Nat := ∑ k : Fin 8, (headLoad s k - deficit[k])

theorem shortfall_lt_visitBound (s : State) (deficit : Vector Nat 8) : shortfall s deficit < Config.visitBound := by
  have each : ∀ k ∈ (Finset.univ : Finset (Fin 8)), headLoad s k - deficit[k] ≤ 16 := fun k _ =>
    (Nat.sub_le _ _).trans (headLoad_le s k)
  have all : shortfall s deficit ≤ 8 * 16 := Finset.sum_le_card_nsmul _ _ 16 each
  exact Nat.lt_succ_of_le all

theorem shortfall_gain_lt {s : State} {deficit : Vector Nat 8} {k : Fin 8} {w : Nat} (short : deficit[k] < headLoad s k)
    (hw : 1 ≤ w) : shortfall s (deficit.set k (deficit[k] + w)) < shortfall s deficit := by
  refine Finset.sum_lt_sum (fun j _ => ?_) ⟨k, Finset.mem_univ k, ?_⟩
  · rw [getElem_set_fin]
    split
    · subst ‹k = j›
      omega
    · exact le_rfl
  · rw [getElem_set_fin, if_pos rfl]
    omega

/-- More visits than beats are short end in a round, where every weight is at least 1. -/
theorem visits_isSome {s : State} {k : Fin 8} (weights : ∀ k : Fin 8, 1 ≤ s.classRec[k].weight)
    (work : Works s .weighted k) (n : Nat) (ptr : Fin 8) (deficit : Vector Nat 8) (enough : shortfall s deficit < n) :
    ∃ r, visits s n ptr deficit = some r := by
  induction n generalizing ptr deficit with
  | zero => exact absurd enough (Nat.not_lt_zero _)
  | succ n ih =>
    obtain ⟨j, first⟩ := exists_firstInRound work ptr
    rw [visits_succ first]
    split
    · exact ⟨_, rfl⟩
    · have gain := shortfall_gain_lt (Nat.lt_of_not_le ‹_›) (weights j)
      exact ih _ _ (by omega)

/-- The bound on the visits never cuts a round short. -/
theorem weightedRound_isSome {s : State} {k : Fin 8} (weights : ∀ k : Fin 8, 1 ≤ s.classRec[k].weight)
    (work : Works s .weighted k) : ∃ r, weightedRound s = some r :=
  visits_isSome weights work _ _ _ (shortfall_lt_visitBound s _)

/-- Settles O27: the ranks are those of R109, and a weighted round always ends, as its visits bring the classes nearer to their
heads. -/
theorem schedulerChoice : Obligations.SchedulerChoice := by
  intro s weights work
  refine ⟨fun k => chooseClass_strictHigh, fun noHigh ⟨k, hk⟩ => ?_, fun noHigh noWeighted k =>
    chooseClass_strictLow noHigh noWeighted⟩
  obtain ⟨r, hr⟩ := weightedRound_isSome weights hk
  have round : RoundFrom s s.sched.roundPtr s.sched.deficit r := visits_roundFrom s _ _ _ r hr
  obtain ⟨works, covered⟩ := round.covers
  exact ⟨r, round, hr, chooseClass_weighted noHigh hk hr, works, covered,
    fun j => ⟨round.deficit_le j, round.deficit_idle⟩⟩

/-! ### The issue -/

section Choice
variable {s u : State}

theorem headLoad_congr (queues : u.queues = s.queues) (k : Fin 8) : headLoad u k = headLoad s k := by
  simp only [headLoad, queues]

variable (recs : u.classRec = s.classRec) (queues : u.queues = s.queues)
include recs queues

theorem hasWork_congr (m : SchedMode) : hasWork u m = hasWork s m := by
  funext k
  simp only [hasWork, recs, queues]

theorem visits_congr (n : Nat) (ptr : Fin 8) (deficit : Vector Nat 8) : visits u n ptr deficit = visits s n ptr deficit := by
  induction n generalizing ptr deficit with
  | zero => rfl
  | succ n ih =>
    rw [visits, visits, hasWork_congr recs queues]
    cases (classesFrom ptr).find? (hasWork s .weighted) with
    | none => rfl
    | some k => simp only [headLoad_congr queues, recs, ih]

/-- The choice reads the class records, the queues, the deficits and the pointer alone. -/
theorem chooseClass_congr (sched : u.sched = s.sched) : chooseClass u = chooseClass s := by
  simp only [chooseClass, hasWork_congr recs queues, weightedRound, visits_congr recs queues, afterWeighted,
    headLoad_congr queues, sched, queues]

end Choice

theorem issueEvent_memNotReady {s : State} (h : s.pins.memReady = false) : issueEvent s = s := by
  simp only [issueEvent, h, Bool.false_eq_true, if_false]

theorem issueEvent_noFreeTag {s : State} (h : ∀ t : Fin 32, s.tags[t].isFree = false) : issueEvent s = s := by
  rcases issueEvent_cases s with same | ⟨_, _, t, _, _, _, free, _⟩
  · exact same
  · exact absurd free (by rw [h t]; decide)

theorem issueEvent_noWork {s : State} (h : ∀ k : Fin 8, s.queues[k] = []) : issueEvent s = s := by
  rcases issueEvent_cases s with same | ⟨k, _, _, _, _, queued, _⟩
  · exact same
  · exact absurd ((h k).symm.trans queued) (List.cons_ne_nil _ _).symm

/-- With memory ready, a FREE tag and a head to send, the head goes under the lowest-numbered FREE tag (R108, R114). -/
theorem issueEvent_issues {s : State} {t : Fin 32} {k : Fin 8} {sched : Sched} {d : Descriptor} {rest : List Descriptor}
    (ready : s.pins.memReady = true) (tag : lowestFreeTag s = some t) (choice : chooseClass s = some (k, sched))
    (head : s.queues[k] = d :: rest) : issueEvent s = issueHead s k sched t d rest := by
  simp only [issueEvent, ready, if_true, issueReady, tag, choice, head]

/-- ISSUE on a running part. -/
theorem exec_issue {s : State} (ready : Bool) (h : s.phase = .running) :
    exec (.issue ready) s = .next (issueEvent (withReady s ready).quiet) :=
  whileRunning_running (s := withReady s ready) issueEvent h

/-- Settles O26: an issue is the choice of the scheduler sent under the lowest FREE tag, and needs each of its conditions. -/
theorem issueHandsOver : Obligations.IssueHandsOver := by
  intro s ready s'
  refine ⟨fun blocked => ?_, ?_⟩
  · by_cases run : s.phase = .running
    · rw [exec_issue ready run]
      refine congrArg Host.Outcome.next ?_
      rcases blocked with held | notReady | noTag | noWork
      · exact absurd run held
      · exact issueEvent_memNotReady notReady
      · exact issueEvent_noFreeTag noTag
      · exact issueEvent_noWork noWork
    · exact whileRunning_inReset (s := withReady s ready) issueEvent run
  · rintro t k sched d rest run rfl free lowest choice head
    have tag : lowestFreeTag (withReady s true).quiet = some t :=
      lowestFreeTag_eq_some.2 ⟨congrArg TagState.isFree free, lowest⟩
    have same : chooseClass (withReady s true).quiet = chooseClass s := chooseClass_congr rfl rfl rfl
    rw [exec_issue true run, issueEvent_issues (s := (withReady s true).quiet) rfl tag (same.trans choice) head]
    rfl

/-! ### After a weighted issue (R111) -/

section After
variable {s : State} {r : Round} {d : Descriptor}

theorem afterWeighted_emptied (h : s.queues[r.cls] = [d]) :
    afterWeighted s r = ⟨r.cls + 1, r.deficit.set r.cls 0⟩ := by
  simp only [afterWeighted, h, List.tail_cons, List.isEmpty_nil, if_true]

theorem afterWeighted_left {rest : List Descriptor} (h : s.queues[r.cls] = d :: rest) (left : rest ≠ []) :
    afterWeighted s r = ⟨r.cls, r.deficit.set r.cls (r.deficit[r.cls] - d.beats)⟩ := by
  simp only [afterWeighted, h, List.tail_cons, List.isEmpty_iff, left, if_false, headLoad_cons h]

/-- Whether the queue is now empty or not, the deficits are the round's but for the class that was chosen. -/
theorem afterWeighted_other (s : State) (r : Round) {j : Fin 8} (other : j ≠ r.cls) :
    (afterWeighted s r).deficit[j] = r.deficit[j] := by
  unfold afterWeighted
  split <;> exact (getElem_set_fin _ _ _ _).trans (if_neg other.symm)

end After

/-- Settles O28: the two outcomes of R111, by whether the head was the last of its queue. -/
theorem deficitAfterWeightedIssue : Obligations.DeficitAfterWeightedIssue := by
  intro s r d rest head
  refine ⟨fun j => afterWeighted_other s r, fun left => ?_, ?_⟩
  · rw [afterWeighted_left head left, getElem_set_fin, if_pos rfl]
    exact ⟨rfl, rfl⟩
  · rintro rfl
    rw [afterWeighted_emptied head, getElem_set_fin, if_pos rfl]
    exact ⟨rfl, Fin.val_add r.cls 1⟩

end Sys2Proof.Machine
end

section
/-! PROOFS. The Issue Tracker, completion and deadlines: the completions that answer nothing (O31), and the expiries that stand
(O34). -/

namespace Sys2Proof.Machine

/-! ### Completions that answer nothing -/

/-- The tag becomes FREE and its orphan record is dropped; no latch moves, so nothing is noted (R128). -/
theorem completionEvent_orphan {s : State} {t : Fin 32} {o : OrphanRecord} (st : MemStatus) (data : List Beat)
    (late : s.tags[t] = .orphan o) :
    completionEvent t st data s = { s with tags := s.tags.set t .free } := by
  simp only [completionEvent, late]
  exact noteHold_of_same rfl rfl

/-- STRAY_COMPLETION, and nothing else (R129). -/
theorem completionEvent_free {s : State} {t : Fin 32} (st : MemStatus) (data : List Beat) (stray : s.tags[t] = .free) :
    completionEvent t st data s = s.raise .strayCompletion := by
  simp only [completionEvent, stray]
  exact noteHold_of_same rfl rfl

/-- Settles O31: by the state of the tag while the part runs, and by the reset otherwise. -/
theorem completionLateOrStray : Obligations.CompletionLateOrStray := by
  intro s t st data
  refine ⟨fun hrun o late => ?_, fun hrun stray => ?_, fun hreset => ?_⟩
  · rw [exec_completion hrun, completionEvent_orphan (s := s.quiet) st data late]
    rfl
  · rw [exec_completion hrun, completionEvent_free (s := s.quiet) st data stray]
    rfl
  · exact whileRunning_inReset (completionEvent t st data) hreset

/-! ### The expiries that stand -/

/-- Counts move the reports alone. -/
theorem countEach_eq_withReports (s : State) (gs : List (Fin 24)) (c : Counter) :
    countEach s gs c = withReports s (countEach s gs c) :=
  countEach_withReports (v := s) (u := s) rfl gs c

/-- The state that frees at the expiries of an event of their own: what expires has left its queue or its tag, and the answers and
the reports stand (R131 to R133). -/
def expiriesAnswered (s : State) : State :=
  let ds := expiring s
  let u := countEach s (ds.map Descriptor.group) .faulted
  { dropExpired s with
    counters := u.counters
    captures := u.captures
    events := { u.events with sticky := stickyWith u.events.sticky (!ds.isEmpty) .expired }
    out := { s.quietOut with responses := .ofFn fun p => runOfResponses ds (.fault .expired) p } }

/-- What expires is answered on channels where nothing stands yet, and counted as it would be in `s`. -/
theorem expiriesAnswered_eq (s : State) :
    (countEach (respondAll (dropExpired s.quiet) (expiring s) (.fault .expired)) ((expiring s).map Descriptor.group)
      .faulted).raiseIf (!(expiring s).isEmpty) .expired = expiriesAnswered s := by
  have counted := countEach_withReports (v := respondAll (dropExpired s.quiet) (expiring s) (.fault .expired)) (u := s) rfl
    ((expiring s).map Descriptor.group) .faulted
  have answered : (respondAll (dropExpired s.quiet) (expiring s) (.fault .expired)).out =
      { s.quietOut with responses := .ofFn fun p => runOfResponses (expiring s) (.fault .expired) p } := by
    simp only [respondAll_out, dropExpired_out, quiet_out, quiet_responses, List.nil_append]
  rw [expiriesAnswered, ← answered]
  exact congrArg (State.raiseIf · _ _) counted

theorem expiryEvent_eq (s : State) : expiryEvent s.quiet = afterFreeing (expiriesAnswered s) (expiring s) := by
  have expiries : expireAll s.quiet = handOn (freeDescriptors (expiriesAnswered s) (expiring s)) (expiring s) := by
    rw [← expiriesAnswered_eq]
    rfl
  rw [expiryEvent, expiries]
  exact noteHold_freed (expiring s) rfl rfl

/-- Settles O34: the answers with their reports, and then the freeing. -/
theorem expiryCommand : Obligations.ExpiryCommand := by
  intro s hrun ds loads hold op u
  have reports : u = withReports s u := countEach_eq_withReports s _ _
  have event : exec .expiry s = .next (expiryEvent s.quiet) := whileRunning_running expiryEvent hrun
  rw [event, expiryEvent_eq, reports]
  rfl

end Sys2Proof.Machine
end

section
/-! PROOFS. Statistics counters: what a counting event adds and when it crosses the half range (O38), and the frames that clear
counters, events and causes (O41). -/

namespace Sys2Proof.Machine

/-! ### Counting events -/

theorem countEnabled_iff (s : State) (g : Fin 24) (c : Counter) :
    countEnabled s g c = true ↔ s.glob.statsEnable = true ∧ s.glob.enables[g].getLsbD c.idx.val = true := by
  rw [countEnabled, Bool.and_eq_true]

theorem crossesHalf_iff (old new : BitVec 32) :
    crossesHalf old new = true ↔ old.toNat < 2 ^ 31 ∧ 2 ^ 31 ≤ new.toNat := by
  simp only [crossesHalf, Bool.and_eq_true, decide_eq_true_eq, BitVec.lt_def, BitVec.le_def]
  rfl

theorem counterValue_count_enabled {s : State} {g : Fin 24} {c : Counter} (n : Nat) (h : countEnabled s g c = true) :
    counterValue (count s g c n) g c = counterValue s g c + BitVec.ofNat 32 n := by
  rw [counterValue_count, if_pos ⟨h, rfl, rfl⟩]

/-- The counting event takes its counter across the half range (R147, R149). -/
def countCrosses (s : State) (g : Fin 24) (c : Counter) (n : Nat) : Bool :=
  countEnabled s g c && crossesHalf (counterValue s g c) (counterValue s g c + BitVec.ofNat 32 n)

theorem countCrosses_iff (s : State) (g : Fin 24) (c : Counter) (n : Nat) :
    countCrosses s g c n = true ↔
      countEnabled s g c = true ∧ (counterValue s g c).toNat < 2 ^ 31 ∧
        2 ^ 31 ≤ (counterValue (count s g c n) g c).toNat := by
  rw [countCrosses, Bool.and_eq_true, crossesHalf_iff]
  exact and_congr_right fun on => by rw [counterValue_count_enabled n on]

theorem count_half (s : State) (g g' : Fin 24) (c : Counter) (n : Nat) :
    (count s g c n).counters.half[g'] = (s.counters.half[g'] || (decide (g' = g) && countCrosses s g c n)) := by
  have half : (count s g c n).counters.half =
      if countCrosses s g c n then s.counters.half.set g true else s.counters.half := rfl
  rw [half]
  cases countCrosses s g c n with
  | false => simp
  | true => simp [Vector.getElem_set, Fin.ext_iff, eq_comm, Bool.or_comm, Bool.if_true_left]

/-- A counting event raises COUNTER_HALF where it crosses, and no other event (R149). -/
theorem isRaised_count (s : State) (g : Fin 24) (c : Counter) (n : Nat) (e : Sticky) :
    (count s g c n).isRaised e = (s.isRaised e || (countCrosses s g c n && decide (.counterHalf = e))) :=
  isRaised_raiseIf s (countCrosses s g c n) .counterHalf e

/-- Settles O38: the counter's value, the half bits and the events are each said by one lemma about `count`, and the crossing is the
same in all. -/
theorem countAddsAndCrosses : Obligations.CountAddsAndCrosses := by
  intro s g c n t on crossed
  have enabled : countEnabled s g c = true ↔ on := countEnabled_iff s g c
  have crosses : countCrosses s g c n = true ↔ crossed := (countCrosses_iff s g c n).trans (and_congr_left' enabled)
  refine ⟨fun h => ?_, fun g' c' h => ?_, fun g' => ?_, ?_, fun e he => ?_, rfl⟩
  · rw [counterValue_count_enabled n (enabled.2 h), BitVec.toNat_add, BitVec.toNat_ofNat, Nat.add_mod_mod]
  · have spared : ¬(countEnabled s g c = true ∧ g' = g ∧ c' = c) := by
      rw [not_and_or, not_and_or, enabled]
      exact h
    rw [counterValue_count, if_neg spared]
  · rw [count_half, Bool.or_eq_true, Bool.and_eq_true, decide_eq_true_eq, crosses]
  · rw [isRaised_count, decide_eq_true rfl, Bool.and_true, Bool.or_eq_true, crosses]
  · rw [isRaised_count, decide_eq_false he.symm, Bool.and_false, Bool.or_false]

/-! ### The group set of CLEAR_EVENTS -/

/-- Bit `b` of byte `j` of a number in `n` bytes, least significant first (R173). -/
theorem numAt_testBit (d : List Byte) (i : Nat) {n j b : Nat} (hj : j < n) (hb : b < 8) :
    (numAt d i n).testBit (8 * j + b) = (byteAt d (i + j)).getLsbD b := by
  induction n generalizing i j with
  | zero => omega
  | succ n ih =>
    have low : natAt d i < 2 ^ 8 := natAt_lt d i
    have bits : (numAt d i (n + 1)).testBit (8 * j + b) =
        if 8 * j + b < 8 then (natAt d i).testBit (8 * j + b)
        else (numAt d (i + 1) n).testBit (8 * j + b - 8) := by
      rw [numAt_succ, Nat.add_comm (natAt d i)]
      exact Nat.testBit_two_pow_mul_add _ low _
    cases j with
    | zero =>
      rw [bits, if_pos (by omega), Nat.mul_zero, Nat.zero_add, Nat.add_zero]
      exact BitVec.testBit_toNat _
    | succ j =>
      have next : 8 * (j + 1) + b - 8 = 8 * j + b := by omega
      rw [bits, if_neg (by omega), next, ih (i + 1) (by omega), Nat.add_assoc, Nat.add_comm 1 j]

/-- The group set names none of the groups 24 to 31, which do not exist (R163). -/
theorem groupSet_inRange_iff (d : List Byte) (i : Nat) : numAt d i 4 < 2 ^ 24 ↔ byteAt d (i + 3) = 0#8 := by
  rw [← natAt_eq_zero]
  simp only [numAt_succ, numAt_zero, Nat.add_assoc, Nat.reduceAdd]
  have h0 := natAt_lt d i
  have h1 := natAt_lt d (i + 1)
  have h2 := natAt_lt d (i + 2)
  omega

/-- Each group's bit of the set, in the byte that holds it (R171). -/
theorem groupSet_testBit (d : List Byte) (i : Nat) (g : Fin 24) :
    (numAt d i 4).testBit g.val = (byteAt d (i + g.val / 8)).getLsbD (g.val % 8) := by
  rw [← numAt_testBit d i (n := 4) (by omega) (Nat.mod_lt _ (by decide)), Nat.div_add_mod]

/-! ### CLEAR_GROUP, CLEAR_ALL_COUNTERS, CLEAR_EVENTS, CLEAR_CAUSE -/

theorem clearGroupAct_inRange {f : FrameBits} {g : Fin 24} (s : State) (h : byteAt f.bytes 1 = BitVec.ofNat 8 g.val) :
    clearGroupAct f s = ({ s with counters := clearedGroup s.counters g }, .done) := by
  simp only [clearGroupAct, h, indexBelow_ofNat (by decide : 24 ≤ 256) g]

theorem clearGroupAct_outOfRange {f : FrameBits} (s : State) (h : 24 ≤ (byteAt f.bytes 1).toNat) :
    clearGroupAct f s = (s, .refused) := by
  simp only [clearGroupAct, indexBelow_outOfRange h]

theorem clearAllAct_eq (s : State) :
    clearAllAct s = ({ s with counters := ⟨.replicate 24 (.replicate 6 0#32), .replicate 24 false⟩ }, .done) := rfl

theorem clearEventsAct_inRange {f : FrameBits} (s : State) (h : byteAt f.bytes 6 = 0#8) :
    clearEventsAct f s =
      ({ s with
         events := { s.events with sticky := s.events.sticky &&& ~~~(byteAt f.bytes 2) }
         counters := { s.counters with half := .ofFn fun g =>
           s.counters.half[g] && !(byteAt f.bytes (3 + g.val / 8)).getLsbD (g.val % 8) } }, .done) := by
  have inRange : numAt f.bytes 3 4 < 2 ^ 24 := (groupSet_inRange_iff f.bytes 3).2 h
  simp only [clearEventsAct, inRange, if_true, halfWithout, groupSet_testBit]

theorem clearEventsAct_outOfRange {f : FrameBits} (s : State) (h : byteAt f.bytes 6 ≠ 0#8) :
    clearEventsAct f s = (s, .refused) := by
  have outOfRange : ¬numAt f.bytes 3 4 < 2 ^ 24 := mt (groupSet_inRange_iff f.bytes 3).1 h
  simp only [clearEventsAct, outOfRange, if_false]

theorem clearCauseAct_eq (s : State) : clearCauseAct s = ({ s with cause := ⟨false, false, false⟩ }, .done) := rfl

/-- Settles O41: each frame ends in what its command does, by whether what it names is in range. -/
theorem clearCommands : Obligations.ClearCommands := by
  intro f s hready
  refine ⟨fun g hend hgroup => ?_, fun hend hrange => ?_, fun hend => ?_, fun hend hset => ?_, fun hend hset => ?_,
    fun hend => ?_⟩
  · exact commandFrame_ends (c := .clearGroup) hready hend (clearGroupAct_inRange _ hgroup)
  · exact commandFrame_ends (c := .clearGroup) hready hend (clearGroupAct_outOfRange _ hrange)
  · exact commandFrame_ends (c := .clearAllCounters) hready hend (clearAllAct_eq _)
  · exact (commandFrame_ends (c := .clearEvents) hready hend (clearEventsAct_inRange _ hset) :)
  · exact commandFrame_ends (c := .clearEvents) hready hend (clearEventsAct_outOfRange _ hset)
  · exact commandFrame_ends (c := .clearCause) hready hend (clearCauseAct_eq _)

end Sys2Proof.Machine
end

section
/-! PROOFS. Capture queue and alerts: the frames of POP_CAPTURE (O40), the record of a capture (O39), the frames that write the
mask or a read-only table (O51), and the resets that hold the part (O35). -/

namespace Sys2Proof.Machine

/-! ### Frames with read data -/

/-- A frame of the right length leaves what its command does at its end, and the result (R168, R169). -/
theorem runFrame_completes {s : State} {f : FrameBits} {code want : Nat} {snap : Option Snapshot}
    {act : State → State × ResultCode} {u : State} {r : ResultCode} (hend : endsAt f code want)
    (hact : act (withSdo s.quiet (shiftedOut s f code ((snap.map Snapshot.data).getD []))) = (u, r)) :
    runFrame s f code want snap act = endFrame u r := by
  obtain ⟨hended, hlen⟩ := hend
  rw [runFrame_ended _ _ _ _ _ hended, closeFrame_rightLength _ _ _ _ _ _ hlen]
  exact congrArg (fun x : State × ResultCode => endFrame x.1 x.2) hact

/-- A frame of the wrong length leaves BAD_FRAME and FRAME_ERROR, and its command does nothing (R170). -/
theorem runFrame_discarded (s : State) {f : FrameBits} {code want : Nat} (snap : Option Snapshot)
    (act : State → State × ResultCode) (hended : f.ended = true) (hlen : f.edges code ≠ 8 * want) :
    runFrame s f code want snap act =
      { afterFrame s f code ((snap.map Snapshot.data).getD []) .badFrame with
        events := { s.events with sticky := s.events.sticky ||| Sticky.frameError.bit } } := by
  rw [runFrame_ended _ _ _ _ _ hended, closeFrame_wrongLength _ _ _ _ _ _ hlen]
  rfl

/-- A frame that opens before byte 2 has completed has taken no snapshot (R169). -/
theorem readFrame_openingEarly {s : State} {f : FrameBits} {code : Nat} (want : Nat) (snap : Snapshot)
    (act : Snapshot → State → State × ResultCode) (hready : frameReady s = true) (early : f.edges code < 24) :
    readFrame s .opening f code want snap act = .next (runFrame s f code want none (act snap)) := by
  simp only [readFrame, hready, if_true, if_neg (not_le.2 early)]

theorem readFrame_openingNotReady {s : State} (f : FrameBits) (code want : Nat) (snap : Snapshot)
    (act : Snapshot → State → State × ResultCode) (notReady : frameReady s = false) :
    readFrame s .opening f code want snap act = .next s.quiet := by
  simp only [readFrame, notReady, Bool.false_eq_true, if_false]

/-- A command resumes only a frame of its own, and only while the part runs (log 6). -/
theorem readFrame_resumingNone {s : State} (f : FrameBits) (code want : Nat) {snap : Snapshot}
    (act : Snapshot → State → State × ResultCode)
    (h : s.phase ≠ .running ∨ ∀ o, openSnapshot s = some o → o.source ≠ snap.source) :
    readFrame s .resuming f code want snap act = .next s.quiet := by
  rcases h with inReset | foreign
  · exact readFrame_inReset inReset _ _ _ _ _ _
  · cases opened : openSnapshot s with
    | none => simp only [readFrame, opened]
    | some o => simp only [readFrame, opened, foreign o opened, false_and, if_false]

/-! ### POP_CAPTURE -/

theorem exec_popCapture (m : FrameMoment) (f : FrameBits) (s : State) :
    exec (.popCapture m f) s = readFrame s m f 1 15 (popSnapshot s) popEnd := rfl

theorem popEnd_found {o : Snapshot} (s : State) (h : o.found = true) :
    popEnd o s = ({ s with captures := s.captures.tail }, .done) := by
  simp only [popEnd, h, if_true]

theorem popEnd_missing {o : Snapshot} (s : State) (h : o.found = false) : popEnd o s = (s, .empty) := by
  simp only [popEnd, h, Bool.false_eq_true, if_false]

/-- A POP_CAPTURE that has taken its snapshot ends with what the snapshot found, whenever it took it (R158). -/
theorem runFrame_popEnd {f : FrameBits} (s : State) (o : Snapshot) (hend : endsAt f 1 15) :
    runFrame s f 1 15 (some o) (popEnd o) =
      if o.found = true then { afterFrame s f 1 o.data .done with captures := s.captures.tail }
      else afterFrame s f 1 o.data .empty := by
  cases found : o.found with
  | true => exact runFrame_completes hend (popEnd_found _ found)
  | false => exact runFrame_completes hend (popEnd_missing _ found)

/-- Byte 2 of a frame with one code byte completes with the sixteenth bit after that byte. -/
theorem byteTwo_complete_iff (f : FrameBits) : 24 ≤ f.edges 1 ↔ 16 ≤ f.bits.length := by
  unfold FrameBits.edges
  omega

/-- A whole POP_CAPTURE takes its snapshot on the way and ends with it. -/
theorem exec_popCapture_whole {s : State} {f : FrameBits} (hready : frameReady s = true) (hend : endsAt f 1 15) :
    exec (.popCapture .opening f) s = .next (runFrame s f 1 15 (some (popSnapshot s)) (popEnd (popSnapshot s))) := by
  have byteTwo : 24 ≤ f.edges 1 := hend.2 ▸ (by decide)
  rw [exec_popCapture, readFrame_opening f 1 15 _ _ hready byteTwo]

theorem exec_popCapture_resumed {s : State} {o : Snapshot} (f : FrameBits) (hrun : s.phase = .running)
    (opened : openSnapshot s = some o) (own : o.source = .popCapture) :
    exec (.popCapture .resuming f) s = .next (runFrame s f 1 15 (some o) (popEnd o)) :=
  readFrame_resuming f 1 15 (popSnapshot s) o popEnd opened own hrun

theorem popSnapshot_empty {s : State} (h : s.captures = []) : popSnapshot s = ⟨.popCapture, [], false⟩ := by
  simp only [popSnapshot, h]
  rfl

theorem popSnapshot_cons {s : State} {c : CaptureRecord} {rest : List CaptureRecord} (h : s.captures = c :: rest) :
    popSnapshot s = ⟨.popCapture, captureBytes c, true⟩ := by
  simp only [popSnapshot, h]
  rfl

/-- Settles O40: by the moment the command gives, whether its frame has ended, and what its snapshot found. -/
theorem popCaptureFrames : Obligations.PopCaptureFrames := by
  intro f s snap goesOn
  refine ⟨fun hready hopen byteTwo => ?_, fun hready hopen early => ?_, fun hready hend empty => ?_,
    fun c rest hready hend queue => ?_, fun o hrun opened own hopen => ?_, fun o hrun opened own hend => ?_,
    fun o hrun opened own hended hlen => ?_, fun notReady => ?_, fun h => ?_⟩
  · rw [exec_popCapture, readFrame_opening f 1 15 _ _ hready ((byteTwo_complete_iff f).2 byteTwo),
      runFrame_goesOn _ _ _ _ _ hopen]
    rfl
  · have beforeByteTwo : f.edges 1 < 24 := not_le.1 (mt (byteTwo_complete_iff f).1 (not_le.2 early))
    rw [exec_popCapture, readFrame_openingEarly 15 _ _ hready beforeByteTwo, runFrame_goesOn _ _ _ _ _ hopen]
    rfl
  · rw [exec_popCapture_whole hready hend, runFrame_popEnd _ _ hend, popSnapshot_empty empty]
    rfl
  · rw [exec_popCapture_whole hready hend, runFrame_popEnd _ _ hend, popSnapshot_cons queue, queue]
    rfl
  · rw [exec_popCapture_resumed f hrun opened own, runFrame_goesOn _ _ _ _ _ hopen]
    rfl
  · rw [exec_popCapture_resumed f hrun opened own, runFrame_popEnd _ _ hend]
  · rw [exec_popCapture_resumed f hrun opened own, runFrame_discarded _ _ _ hended hlen]
    rfl
  · exact readFrame_openingNotReady f 1 15 _ _ notReady
  · exact readFrame_resumingNone f 1 15 _ h

/-! ### Captures -/

theorem capture_none {res : Resolution} (s : State) (p : Fin 6) (r : Request) (c : Option Colour) (o : TakeOutcome)
    (silent : res.capture = none) : capture s p r res c o = s := by
  simp only [capture, silent]

/-- A queue with room takes the record and loses nothing (R156). -/
theorem capture_room {s : State} {res : Resolution} {i : Fin 48} (p : Fin 6) (r : Request) (c : Option Colour)
    (o : TakeOutcome) (notify : res.capture = some i) (room : s.captures.length < 16) :
    capture s p r res c o = { s with captures := s.captures ++ [captureOf s p r i res.cls c o] } := by
  simp only [capture, notify, Config.captureLimit, room, if_true, decide_eq_false (not_le.2 room), stickyWith_false]

/-- A full queue stays as it is, and the loss is reported (R157). -/
theorem capture_full {s : State} {res : Resolution} {i : Fin 48} (p : Fin 6) (r : Request) (c : Option Colour)
    (o : TakeOutcome) (notify : res.capture = some i) (full : 16 ≤ s.captures.length) :
    capture s p r res c o =
      { s with events := { s.events with sticky := s.events.sticky ||| Sticky.captureLost.bit } } := by
  simp only [capture, notify, Config.captureLimit, if_neg (not_lt.2 full), decide_eq_true full, stickyWith_true]

/-- Settles O39: by NOTIFY and the room in the queue. -/
theorem captureAppendsOrLoses : Obligations.CaptureAppendsOrLoses := by
  intro s p r res c o
  exact ⟨capture_none s p r c o, fun i => capture_room p r c o, fun i => capture_full p r c o⟩

/-! ### WRITE_EVENT_MASK and WRITE_ENTRY -/

theorem writeMaskEntry_passes {b : Byte} {d : List Byte} (s : State) (hb : b = 0#8) (hmask : numAt d 0 2 < 1024) :
    writeMaskEntry b d s = ({ s with events := { s.events with mask := BitVec.ofNat 10 (numAt d 0 2) } }, .done) := by
  simp only [writeMaskEntry, maskOk, hb, hmask, decide_true, and_self, if_true]

theorem writeMaskEntry_refused {b : Byte} {d : List Byte} (s : State) (h : b ≠ 0#8 ∨ 1024 ≤ numAt d 0 2) :
    writeMaskEntry b d s = (s, .refused) := by
  have fails : ¬(b = 0#8 ∧ maskOk d = true) := by
    rw [not_and_or, maskOk, decide_eq_true_eq, not_lt]
    exact h
  simp only [writeMaskEntry, fails, if_false, refuseWrite]

/-- Settles O51: a mask that names nothing beyond the ten bits replaces the mask; every other write is refused. -/
theorem writeMaskAndReadOnly : Obligations.WriteMaskAndReadOnly := by
  intro f s hready
  refine ⟨fun hend hindex hmask => ?_, fun hend h => ?_, fun t hend => ?_⟩
  · exact (tableFrame_ends (t := .eventMask) hready hend (writeMaskEntry_passes _ hindex hmask) :)
  · exact tableFrame_ends (t := .eventMask) hready hend (writeMaskEntry_refused _ h)
  · exact tableFrame_ends (act := fun _ _ => refuseWrite) hready hend rfl

/-! ### The resets -/

theorem exec_powerOnReset (s : State) :
    exec .powerOnReset s = .next (inReset s .powerOnReset ⟨true, false, false⟩ s.pins.resetNHigh) := rfl

theorem exec_lineReset (s : State) : exec .lineReset s = .next (lineResetEvent s) := rfl

theorem lineResetEvent_running {s : State} (h : s.phase = .running) :
    lineResetEvent s = inReset s .lineReset { s.cause with line := true } false := by
  simp only [lineResetEvent, h]

theorem lineResetEvent_powerOn {s : State} (h : s.phase = .powerOnReset) :
    lineResetEvent s = { s.quiet with pins := { s.pins with resetNHigh := false } } := by
  simp only [lineResetEvent, h]

theorem lineResetEvent_repeated {s : State} (h : s.phase = .lineReset) : lineResetEvent s = s.quiet := by
  simp only [lineResetEvent, h]

/-- Settles O35: a power-on reset and a line reset of a running part hold every block; in a reset RESET_N moves its level alone. -/
theorem resetsHoldThePart : Obligations.ResetsHoldThePart := by
  intro s held'
  have held_eq : held' = inReset s := rfl
  refine ⟨?_, fun running => ?_, fun powerOn => ?_, fun repeated => ?_⟩
  · rw [exec_powerOnReset, held_eq]
  · rw [exec_lineReset, lineResetEvent_running running, held_eq]
  · rw [exec_lineReset, lineResetEvent_powerOn powerOn]
    rfl
  · rw [exec_lineReset, lineResetEvent_repeated repeated]
    rfl

end Sys2Proof.Machine
end

section
/-! PROOFS. The Management Port: serial bits and the reading of frames (O54), the entry an index names, and the frames of
READ_ENTRY (O45). -/

namespace Sys2Proof

/-! ### Serial bits -/

theorem bitsOfByte_byteOfBits (b7 b6 b5 b4 b3 b2 b1 b0 : Bool) :
    bitsOfByte (byteOfBits b7 b6 b5 b4 b3 b2 b1 b0) = [b7, b6, b5, b4, b3, b2, b1, b0] := by
  revert b7 b6 b5 b4 b3 b2 b1 b0
  decide

/-- Eight bits make one byte, and a trailing partial byte makes none (R166). -/
theorem bytesOfBits_length : ∀ l : List Bool, (bytesOfBits l).length = l.length / 8
  | _ :: _ :: _ :: _ :: _ :: _ :: _ :: _ :: rest => by
    simp only [bytesOfBits, List.length_cons, bytesOfBits_length rest]
    omega
  | [] | [_] | [_, _] | [_, _, _] | [_, _, _, _] | [_, _, _, _, _] | [_, _, _, _, _, _] | [_, _, _, _, _, _, _] => by
    simp [bytesOfBits]

/-- The bytes read from the line are the bits that passed, as far as they complete bytes (R166). -/
theorem bitsOfBytes_bytesOfBits : ∀ l : List Bool, bitsOfBytes (bytesOfBits l) = l.take (8 * (bytesOfBits l).length)
  | b7 :: b6 :: b5 :: b4 :: b3 :: b2 :: b1 :: b0 :: rest => by
    have restBits : (bytesOfBits rest).flatMap bitsOfByte = rest.take (8 * (bytesOfBits rest).length) :=
      bitsOfBytes_bytesOfBits rest
    simp only [bytesOfBits, bitsOfBytes, List.flatMap_cons, bitsOfByte_byteOfBits, restBits, List.length_cons, Nat.mul_succ]
    rfl
  | [] | [_] | [_, _] | [_, _, _] | [_, _, _, _] | [_, _, _, _, _] | [_, _, _, _, _, _] | [_, _, _, _, _, _, _] => rfl

/-- The first bit of each group of eight is the most significant of its byte (R166). -/
theorem bytesOfBits_getLsbD {l : List Bool} {n j : Nat} (hn : n < (bytesOfBits l).length) (hj : j < 8) :
    ((bytesOfBits l).getD n 0#8).getLsbD (7 - j) = l.getD (8 * n + j) false := by
  have inside : 8 * n + j < 8 * (bytesOfBits l).length := by omega
  rw [← bitsOfBytes_getD _ _ _ hj, bitsOfBytes_bytesOfBits, List.getD_eq_getElem?_getD, List.getD_eq_getElem?_getD,
    List.getElem?_take_of_lt inside]

/-! ### Frames as they are written -/

theorem frameOf_bytes (c : Command) (f : FrameBits) : (frameOf c f).bytes = c.code :: f.bytes := bytesOfBits_cons _ _

theorem tableFrameOf_bytes (c : Command) (t : Table) (f : FrameBits) :
    (tableFrameOf c t f).bytes = c.code :: t.code :: f.bytes := by
  simp only [FrameBits.bytes, tableFrameOf, bytesOfBits_cons]

theorem frameOf_edges (c : Command) (f : FrameBits) : (frameOf c f).edges 0 = f.edges 1 := by
  simp only [FrameBits.edges, frameOf, List.length_append, bitsOfByte_length]
  omega

theorem tableFrameOf_edges (c : Command) (t : Table) (f : FrameBits) : (tableFrameOf c t f).edges 0 = f.edges 2 := by
  simp only [FrameBits.edges, tableFrameOf, List.length_append, bitsOfByte_length]
  omega

/-! ### The reading of a frame -/

theorem decodeFrame_readEntry (strap : Bool) (t : Table) (f : FrameBits) :
    decodeFrame strap (tableFrameOf .readEntry t f) = .readEntry .opening t f := by
  simp only [decodeFrame, tableFrameOf_bytes, Command.ofCode_code, Table.ofCode_code, tableFrameOf_afterBytes]

theorem decodeFrame_writeEntry (strap : Bool) (t : Table) (f : FrameBits) :
    decodeFrame strap (tableFrameOf .writeEntry t f) = decodeWrite t f := by
  simp only [decodeFrame, tableFrameOf_bytes, Command.ofCode_code, Table.ofCode_code, tableFrameOf_afterBytes]

/-- A METER frame is read by its LOAD byte (R177). -/
theorem decodeWrite_meter (f : FrameBits) :
    decodeWrite .meter f = if f.loadSet = true then .meterLoad f else .writeMeter f := rfl

/-- A frame that names no command or no table is read as BAD_FRAME (R170). -/
theorem decodeFrame_namesNoRow (strap : Bool) {F : FrameBits} (h : F.namesNoRow = true) :
    decodeFrame strap F = .badFrame F := by
  unfold FrameBits.namesNoRow at h
  unfold decodeFrame
  cases hbytes : F.bytes with
  | nil => rfl
  | cons b rest =>
    simp only [hbytes] at h ⊢
    cases hc : Command.ofCode b with
    | none => rfl
    | some c =>
      simp only [hc] at h ⊢
      cases c
      case readEntry | writeEntry =>
        cases rest with
        | nil => rfl
        | cons t _ => simp only [Option.isNone_iff_eq_none.1 h]
      all_goals cases h

/-- The frame of a well-formed command is read as that command, START_HELD being as GOVERNOR_RESET saw it. -/
theorem decodeFrame_encodeFrame {i : Instr} {F : FrameBits} {strap : Bool} (hwf : i.wellFormed = true)
    (hF : encodeFrame i = some F) (hstrap : ∀ h f, i = .governorReset h f → h = strap) : decodeFrame strap F = i := by
  cases i
  case readEntry m t f =>
    cases m with
    | opening =>
      cases hF
      exact decodeFrame_readEntry strap t f
    | resuming => cases hF
  case writeMeter f =>
    cases hF
    have noLoad : f.loadSet = false := (Bool.not_eq_true' _).mp hwf
    rw [decodeFrame_writeEntry, decodeWrite_meter, noLoad]
    rfl
  case meterLoad f =>
    cases hF
    have load : f.loadSet = true := hwf
    rw [decodeFrame_writeEntry, decodeWrite_meter, if_pos load]
  case writeEntry t f =>
    cases hF
    rw [decodeFrame_writeEntry]
    cases t <;> rfl
  case writeGlobal | writePort | writeClass | writeRulePattern | writeRuleAction | writeEventMask =>
    cases hF
    exact decodeFrame_writeEntry strap _ _
  case popCapture m f =>
    cases m with
    | opening =>
      cases hF
      simp only [decodeFrame, frameOf_bytes, Command.ofCode_code, frameOf_afterBytes]
    | resuming => cases hF
  case governorReset h f =>
    cases hF
    simp only [decodeFrame, frameOf_bytes, Command.ofCode_code, frameOf_afterBytes, hstrap h f rfl]
  case swapBanks | clearGroup | clearAllCounters | clearEvents | clearCause | drain | release | setMode | setSeed |
      reclaimTags =>
    cases hF
    simp only [decodeFrame, frameOf_bytes, Command.ofCode_code, frameOf_afterBytes]
  case badFrame =>
    cases hF
    exact decodeFrame_namesNoRow strap hwf
  all_goals cases hF

namespace Machine

/-- Settles O54: the bytes of a run of bits, and each written frame read back. -/
theorem frameRoundTrip : Obligations.FrameRoundTrip :=
  ⟨fun f => ⟨bytesOfBits_length f.bits, fun _ _ hn hj => bytesOfBits_getLsbD hn hj⟩,
    fun _ _ _ hwf hF hstrap => decodeFrame_encodeFrame hwf hF hstrap⟩

/-! ### The entry an index names -/

theorem indexBelow_isSome (n : Nat) (b : Byte) : (indexBelow n b).isSome = true ↔ b.toNat < n := by
  unfold indexBelow
  split <;> simp [*]

theorem ruleIndex_isSome (b : Byte) : (ruleIndex b).isSome = true ↔ b.toNat % 128 < 48 := by
  unfold ruleIndex
  split <;> simp [*]

theorem entryAtZero_isSome (b : Byte) (e : List Byte) : (if b = 0#8 then some e else none).isSome = true ↔ b = 0#8 := by
  split <;> simp [*]

/-- An index names an entry exactly while it lies in its table's range (R172). -/
theorem entryBytes_isSome (s : State) (t : Table) (b : Byte) : (entryBytes s t b).isSome = true ↔ indexInRange t b := by
  cases t with
  | global | status | eventMask => exact entryAtZero_isSome b _
  | port | cls | meter | counters | tracker =>
    simp only [entryBytes, Option.isSome_map, indexBelow_isSome, indexInRange]
  | rulePattern | ruleAction => simp only [entryBytes, Option.isSome_map, ruleIndex_isSome, indexInRange]

theorem length_of_map_eq_some {α : Type} {o : Option α} {e : α → List Byte} {n : Nat} {d : List Byte}
    (len : ∀ a, (e a).length = n) (h : o.map e = some d) : d.length = n := by
  obtain ⟨a, -, rfl⟩ := Option.map_eq_some_iff.1 h
  exact len a

theorem length_of_entryAtZero {b : Byte} {e d : List Byte} (h : (if b = 0#8 then some e else none) = some d) :
    d.length = e.length := by
  obtain ⟨-, here⟩ := Option.ite_none_right_eq_some.1 h
  rw [Option.some.inj here]

/-- Every entry has its table's size (R172). -/
theorem entryBytes_length {s : State} {t : Table} {b : Byte} {d : List Byte} (h : entryBytes s t b = some d) :
    d.length = t.entrySize := by
  cases t with
  | global => exact (length_of_entryAtZero h).trans (globalBytes_layout s).1
  | port => exact length_of_map_eq_some (fun p => (portBytes_layout s p).1) h
  | cls => exact length_of_map_eq_some (fun k => (classBytes_layout s k).1) h
  | meter => exact length_of_map_eq_some (fun m => (meterBytes_layout s m).1) h
  | rulePattern => exact length_of_map_eq_some (fun _ => (patternBytes_layout _).1) h
  | ruleAction => exact length_of_map_eq_some (fun _ => (actionBytes_layout _).1) h
  | counters => exact length_of_map_eq_some (fun g => (countersBytes_layout s g).1) h
  | tracker => exact length_of_map_eq_some (fun _ => (trackerBytes_layout _).1) h
  | status => exact (length_of_entryAtZero h).trans (statusBytes_layout s).1
  | eventMask => exact (length_of_entryAtZero h).trans (leBytes_length 2 _)

/-! ### READ_ENTRY -/

theorem exec_readEntry (m : FrameMoment) (t : Table) (f : FrameBits) (s : State) :
    exec (.readEntry m t f) s =
      readFrame s m f 2 (3 + t.entrySize) (readSnapshot s t (f.bytes.headD 0#8)) readEnd := rfl

/-- Byte 2 of a frame with two code bytes completes with the eighth bit after them. -/
theorem indexByte_complete_iff (f : FrameBits) : 24 ≤ f.edges 2 ↔ 8 ≤ f.bits.length := by
  unfold FrameBits.edges
  omega

theorem readEnd_eq (o : Snapshot) (s : State) : readEnd o s = (s, if o.found = true then .done else .refused) := rfl

/-- A READ_ENTRY that has taken its snapshot ends with what the snapshot found, whenever it took it (R172). -/
theorem runFrame_readEnd {f : FrameBits} {want : Nat} (s : State) (o : Snapshot) (hend : endsAt f 2 want) :
    runFrame s f 2 want (some o) (readEnd o) = afterFrame s f 2 o.data (if o.found = true then .done else .refused) := by
  rw [runFrame_completes hend (readEnd_eq o _)]
  rfl

theorem exec_readEntry_resumed {s : State} {t : Table} {o : Snapshot} (f : FrameBits) (hrun : s.phase = .running)
    (opened : openSnapshot s = some o) (own : o.source = .readEntry t) :
    exec (.readEntry .resuming t f) s = .next (runFrame s f 2 (3 + t.entrySize) (some o) (readEnd o)) :=
  readFrame_resuming f 2 _ (readSnapshot s t (f.bytes.headD 0#8)) o readEnd opened own hrun

/-- Settles O45: by the moment the command gives, whether its frame has ended, and what its snapshot found. -/
theorem readEntryFrames : Obligations.ReadEntryFrames := by
  intro t f s entry snap goesOn
  refine ⟨fun hready hopen byteTwo => ?_, fun hready hopen early => ?_, fun notReady => ?_, fun hready hend => ?_,
    fun o hrun opened own hopen => ?_, fun o hrun opened own hend => ?_, fun o hrun opened own hended hlen => ?_,
    fun h => ?_, entryBytes_isSome s t, fun d => entryBytes_length⟩
  · rw [exec_readEntry, readFrame_opening f 2 _ _ _ hready ((indexByte_complete_iff f).2 byteTwo),
      runFrame_goesOn _ _ _ _ _ hopen]
    rfl
  · have beforeByteTwo : f.edges 2 < 24 := not_le.1 (mt (indexByte_complete_iff f).1 (not_le.2 early))
    rw [exec_readEntry, readFrame_openingEarly _ _ _ hready beforeByteTwo, runFrame_goesOn _ _ _ _ _ hopen]
    rfl
  · exact readFrame_openingNotReady f 2 _ _ _ notReady
  · have byteTwo : 24 ≤ f.edges 2 := hend.2 ▸ (by omega)
    rw [exec_readEntry, readFrame_opening f 2 _ _ _ hready byteTwo, runFrame_readEnd _ _ hend]
    rfl
  · rw [exec_readEntry_resumed f hrun opened own, runFrame_goesOn _ _ _ _ _ hopen]
    rfl
  · rw [exec_readEntry_resumed f hrun opened own, runFrame_readEnd _ _ hend]
  · rw [exec_readEntry_resumed f hrun opened own, runFrame_discarded _ _ _ hended hlen]
    rfl
  · exact readFrame_resumingNone f 2 _ _ h

end Machine

end Sys2Proof
end

section
/-! PROOFS. Every frame from its beginning: what each frame command can do to the Management Port and to the part, whatever the
command (`FrameOutcome`), and from it the frames that are discarded, go on or are not taken (O43) and what SDO carries (O44). -/

namespace Sys2Proof.Machine

/-! ### The length a frame's code bytes ask for -/

theorem rightLength_frameOf {c : Command} (f : FrameBits) (notRead : c ≠ .readEntry) (notWrite : c ≠ .writeEntry) :
    rightLength (frameOf c f) = some c.frameLength := by
  simp only [rightLength, frameOf_bytes, Command.ofCode_code]

theorem rightLength_tableFrameOf {c : Command} (t : Table) (f : FrameBits) (h : c = .readEntry ∨ c = .writeEntry) :
    rightLength (tableFrameOf c t f) = some t.frameLength := by
  rcases h with rfl | rfl <;>
    simp only [rightLength, tableFrameOf_bytes, Command.ofCode_code, List.head?_cons, Option.bind_some, Table.ofCode_code,
      Option.map_some]

/-- `F` is a whole frame whose `code` code bytes name a row of `want` bytes, and `f` is what follows them. -/
structure Spells (F f : FrameBits) (code want : Nat) : Prop where
  ended  : F.ended = f.ended
  edges  : F.edges 0 = f.edges code
  length : rightLength F = some want

theorem spells_frameOf {c : Command} (f : FrameBits) (notRead : c ≠ .readEntry) (notWrite : c ≠ .writeEntry) :
    Spells (frameOf c f) f 1 c.frameLength :=
  ⟨rfl, frameOf_edges c f, rightLength_frameOf f notRead notWrite⟩

theorem spells_tableFrameOf {c : Command} (t : Table) (f : FrameBits) (h : c = .readEntry ∨ c = .writeEntry) :
    Spells (tableFrameOf c t f) f 2 t.frameLength :=
  ⟨rfl, tableFrameOf_edges c t f, rightLength_tableFrameOf t f h⟩

/-! ### What SDO carries -/

/-- What SDO carries in the frame `F` of the command `i` that begins in `s` (R166, R167). -/
def sdoOf (s : State) (i : Instr) (F : FrameBits) : List Bool := shiftedOut s F 0 (readDataOf s i)

/-- What SDO carries depends on a frame by the number of its edges alone. -/
theorem shiftedOut_congr (s : State) {f g : FrameBits} {n m : Nat} (data : List Byte) (h : f.edges n = g.edges m) :
    shiftedOut s f n data = shiftedOut s g m data := by
  simp only [shiftedOut, h]

theorem fitTo_append_left {α : Type} (z : α) {n : Nat} {l : List α} (r : List α) (h : n ≤ l.length) :
    fitTo z n (l ++ r) = fitTo z n l := by
  simp only [fitTo, List.take_append_of_le_length h, List.length_append, Nat.sub_eq_zero_of_le h,
    Nat.sub_eq_zero_of_le (Nat.le_add_right_of_le h)]

/-- Until byte 2 completes SDO carries no read data (R167). -/
theorem shiftedOut_beforeData (s : State) {f : FrameBits} {code : Nat} (data : List Byte) (early : f.edges code ≤ 24) :
    shiftedOut s f code data = shiftedOut s f code [] := by
  have split : bitsOfBytes (s.mgmt.result.byte :: 0#8 :: 0#8 :: data) =
      bitsOfBytes [s.mgmt.result.byte, 0#8, 0#8] ++ bitsOfBytes data :=
    List.flatMap_append (xs := [s.mgmt.result.byte, 0#8, 0#8])
  rw [shiftedOut, split]
  exact fitTo_append_left _ _ early

/-- The bits of SDO in a frame, by their bytes: the result before, two zeros, and the read data (R166, R167). -/
theorem sdoOf_getD {s : State} {i : Instr} {F : FrameBits} {n j : Nat} (hj : j < 8) (h : 8 * n + j < F.edges 0) :
    (sdoOf s i F).getD (8 * n + j) false =
      (if n = 0 then s.mgmt.result.byte else if n < 3 then 0#8
        else (readDataOf s i).getD (n - 3) 0#8).getLsbD (7 - j) := by
  rw [sdoOf, shiftedOut_getD s F 0 _ n j hj h]
  match n with
  | 0 | 1 | 2 => rfl
  | n + 3 => rfl

/-! ### What a frame can do -/

/-- No frame of the command takes a snapshot on its way (R169). -/
def TakesNoSnapshot (i : Instr) : Prop := (∀ t f, i ≠ .readEntry .opening t f) ∧ ∀ f, i ≠ .popCapture .opening f

/-- All that the command `i`, the frame `F` from its beginning, can do in `s`: the port does not take it, it goes on, it ends and
is discarded, or it ends with the right length and its command has acted, beside which SDO keeps its bits. -/
inductive FrameOutcome (i : Instr) (F : FrameBits) (s : State) : State → Prop
  | notTaken (notReady : frameReady s = false) : FrameOutcome i F s s.quiet
  | goesOn (snap : Option Snapshot) (ready : frameReady s = true) (going : F.ended = false)
      (silent : TakesNoSnapshot i → snap = none) : FrameOutcome i F s (leaveOpen s ⟨snap, sdoOf s i F⟩)
  | discarded (ready : frameReady s = true) (ended : F.ended = true) :
      FrameOutcome i F s (discardFrame (withSdo s.quiet (sdoOf s i F)))
  | completed (u : State) (r : ResultCode) (n : Nat) (ready : frameReady s = true) (ended : F.ended = true)
      (length : rightLength F = some n) (edges : F.edges 0 = 8 * n) (sdo : u.out.sdo = some (sdoOf s i F)) :
      FrameOutcome i F s (endFrame u r)

/-- The outcome is a next state, and one that the frame can lead to. -/
def HasFrameOutcome (i : Instr) (F : FrameBits) (s : State) (o : Host.Outcome State Fault Refusal) : Prop :=
  ∃ t, o = .next t ∧ FrameOutcome i F s t

/-- What a command does at the end of its frame leaves SDO its bits (R166). -/
def KeepsSdo (act : State → State × ResultCode) : Prop := ∀ u : State, (act u).1.out.sdo = u.out.sdo

section Frames
variable {i : Instr} {F f : FrameBits} {s : State} {code want : Nat}

theorem runFrame_outcome {snap : Option Snapshot} {act : State → State × ResultCode} (ready : frameReady s = true)
    (spells : Spells F f code want) (keeps : KeepsSdo act) (silent : TakesNoSnapshot i → snap = none)
    (carried : shiftedOut s f code ((snap.map Snapshot.data).getD []) = sdoOf s i F) :
    FrameOutcome i F s (runFrame s f code want snap act) := by
  cases hended : f.ended with
  | false =>
    rw [runFrame_goesOn _ _ _ _ _ hended, carried]
    exact .goesOn snap ready (spells.ended.trans hended) silent
  | true =>
    have ended : F.ended = true := spells.ended.trans hended
    rw [runFrame_ended _ _ _ _ _ hended]
    by_cases hlen : f.edges code = 8 * want
    · rw [closeFrame_rightLength _ _ _ _ _ _ hlen, shiftedOut_quiet, carried]
      exact .completed _ _ want ready ended spells.length (spells.edges.trans hlen) (keeps _)
    · rw [closeFrame_wrongLength _ _ _ _ _ _ hlen, shiftedOut_quiet, carried]
      exact .discarded ready ended

/-- A frame without read data carries the result before and zeros (R167). -/
theorem shiftedOut_noData (spells : Spells F f code want) (noData : readDataOf s i = []) :
    shiftedOut s f code [] = sdoOf s i F := by
  rw [sdoOf, noData, shiftedOut_congr s [] spells.edges]

theorem commandFrame_outcome {c : Command} {act : State → State × ResultCode} (notRead : c ≠ .readEntry)
    (notWrite : c ≠ .writeEntry) (noData : readDataOf s i = []) (keeps : KeepsSdo act) :
    HasFrameOutcome i (frameOf c f) s (commandFrame s c f act) := by
  cases taken : frameReady s with
  | false => exact ⟨_, commandFrame_notReady _ _ _ taken, .notTaken taken⟩
  | true =>
    have spells := spells_frameOf f notRead notWrite
    exact ⟨_, commandFrame_ready _ _ _ taken,
      runFrame_outcome taken spells keeps (fun _ => rfl) (shiftedOut_noData spells noData)⟩

theorem tableFrame_outcome {t : Table} {act : Byte → List Byte → State → State × ResultCode}
    (noData : readDataOf s i = []) (keeps : ∀ b d, KeepsSdo (act b d)) :
    HasFrameOutcome i (tableFrameOf .writeEntry t f) s (tableFrame s t f act) := by
  cases taken : frameReady s with
  | false => exact ⟨_, tableFrame_notReady _ _ _ taken, .notTaken taken⟩
  | true =>
    have spells := spells_tableFrameOf t f (.inr rfl : Command.writeEntry = .readEntry ∨ _)
    exact ⟨_, tableFrame_ready _ _ _ taken,
      runFrame_outcome taken spells (keeps _ _) (fun _ => rfl) (shiftedOut_noData spells noData)⟩

/-- A frame with read data, before its snapshot or after it: SDO carries the same bits as if it had the data from the first. -/
theorem readFrame_outcome {snap : Snapshot} {act : Snapshot → State → State × ResultCode}
    (spells : Spells F f code want) (reads : ¬TakesNoSnapshot i) (data : readDataOf s i = snap.data)
    (keeps : ∀ o, KeepsSdo (act o)) : HasFrameOutcome i F s (readFrame s .opening f code want snap act) := by
  have silent {o : Option Snapshot} : TakesNoSnapshot i → o = none := fun takes => absurd takes reads
  have carried : shiftedOut s f code snap.data = sdoOf s i F := by
    rw [sdoOf, data, shiftedOut_congr s snap.data spells.edges]
  cases taken : frameReady s with
  | false => exact ⟨_, readFrame_openingNotReady _ _ _ _ _ taken, .notTaken taken⟩
  | true =>
    by_cases byteTwo : 24 ≤ f.edges code
    · exact ⟨_, readFrame_opening _ _ _ _ _ taken byteTwo, runFrame_outcome taken spells (keeps _) silent carried⟩
    · have early : f.edges code < 24 := not_le.1 byteTwo
      exact ⟨_, readFrame_openingEarly _ _ _ taken early,
        runFrame_outcome taken spells (keeps _) silent ((shiftedOut_beforeData s _ early.le).symm.trans carried)⟩

end Frames

/-- A BAD_FRAME never completes (R170). -/
theorem badFrame_outcome (F : FrameBits) (s : State) :
    HasFrameOutcome (.badFrame F) F s (exec (.badFrame F) s) := by
  refine ⟨badFrameEvent s F, rfl, ?_⟩
  unfold badFrameEvent
  cases taken : frameReady s with
  | false => exact .notTaken taken
  | true =>
    cases ended : F.ended with
    | false => exact .goesOn none taken ended fun _ => rfl
    | true => exact .discarded taken ended

/-! ### What the commands' acts leave to SDO -/

theorem popEnd_keepsSdo (o : Snapshot) : KeepsSdo (popEnd o) := by
  intro u
  unfold popEnd
  split <;> rfl

theorem clearGroupAct_keepsSdo (f : FrameBits) : KeepsSdo (clearGroupAct f) := by
  intro u
  unfold clearGroupAct
  split <;> rfl

theorem clearEventsAct_keepsSdo (f : FrameBits) : KeepsSdo (clearEventsAct f) := by
  intro u
  unfold clearEventsAct
  split <;> rfl

theorem drainAct_keepsSdo : KeepsSdo drainAct := by
  intro u
  unfold drainAct
  split <;> rfl

theorem setModeAct_keepsSdo (f : FrameBits) : KeepsSdo (setModeAct f) := by
  intro u
  rcases setModeAct_does f u with same | ⟨m, changed⟩
  · rw [same]
  · rw [changed]
    rfl

theorem setSeedAct_keepsSdo (f : FrameBits) : KeepsSdo (setSeedAct f) := by
  intro u
  unfold setSeedAct
  split <;> rfl

theorem writeGlobalEntry_keepsSdo (b : Byte) (d : List Byte) : KeepsSdo (writeGlobalEntry b d) := by
  intro u
  rcases writeGlobalEntry_does b d u with same | ⟨r, -, applied⟩
  · rw [same]
  · rw [applied]
    rfl

theorem writePortEntry_keepsSdo (b : Byte) (d : List Byte) : KeepsSdo (writePortEntry b d) := by
  intro u
  rcases writePortEntry_does b d u with same | ⟨p, r, -, applied⟩
  · rw [same]
  · rw [applied]
    rfl

theorem writeClassEntry_keepsSdo (b : Byte) (d : List Byte) : KeepsSdo (writeClassEntry b d) := by
  intro u
  rcases writeClassEntry_does b d u with same | ⟨k, r, applied⟩
  · rw [same]
  · rw [applied]
    rfl

theorem writeMeterEntry_keepsSdo (b : Byte) (d : List Byte) : KeepsSdo (writeMeterEntry b d) := by
  intro u
  rcases writeMeterEntry_does b d u with same | ⟨m, applied⟩
  · rw [same]
  · rw [applied]
    rfl

theorem writeRuleHalf_keepsSdo (ok : Bool) (half : Rule → Rule) (b : Byte) : KeepsSdo (writeRuleHalf ok half b) := by
  intro u
  unfold writeRuleHalf
  split
  · rfl
  · split <;> rfl

theorem writePatternEntry_keepsSdo (b : Byte) (d : List Byte) : KeepsSdo (writePatternEntry b d) :=
  fun u => writePatternEntry_eq b d u ▸ writeRuleHalf_keepsSdo _ _ b u

theorem writeActionEntry_keepsSdo (b : Byte) (d : List Byte) : KeepsSdo (writeActionEntry b d) :=
  fun u => writeActionEntry_eq b d u ▸ writeRuleHalf_keepsSdo _ _ b u

theorem writeMaskEntry_keepsSdo (b : Byte) (d : List Byte) : KeepsSdo (writeMaskEntry b d) := by
  intro u
  unfold writeMaskEntry
  split <;> rfl

/-! ### Every frame command -/

/-- Every frame command does what a frame can do. -/
theorem exec_hasFrameOutcome {i : Instr} {F : FrameBits} (s : State) (hF : encodeFrame i = some F) :
    HasFrameOutcome i F s (exec i s) := by
  cases i
  case readEntry m t f =>
    cases m with
    | opening =>
      cases hF
      exact readFrame_outcome (spells_tableFrameOf t f (.inl rfl)) (fun silent => silent.1 t _ rfl) rfl fun _ _ => rfl
    | resuming => cases hF
  case popCapture m f =>
    cases m with
    | opening =>
      cases hF
      exact readFrame_outcome (spells_frameOf f nofun nofun) (fun silent => silent.2 _ rfl) rfl popEnd_keepsSdo
    | resuming => cases hF
  case badFrame =>
    cases hF
    exact badFrame_outcome F s
  case writeEntry t f =>
    cases hF
    exact tableFrame_outcome (act := fun _ _ => refuseWrite) rfl fun _ _ _ => rfl
  case writeGlobal f =>
    cases hF
    exact tableFrame_outcome rfl writeGlobalEntry_keepsSdo
  case writePort f =>
    cases hF
    exact tableFrame_outcome rfl writePortEntry_keepsSdo
  case writeClass f =>
    cases hF
    exact tableFrame_outcome rfl writeClassEntry_keepsSdo
  case writeMeter f | meterLoad f =>
    cases hF
    exact tableFrame_outcome rfl writeMeterEntry_keepsSdo
  case writeRulePattern f =>
    cases hF
    exact tableFrame_outcome rfl writePatternEntry_keepsSdo
  case writeRuleAction f =>
    cases hF
    exact tableFrame_outcome rfl writeActionEntry_keepsSdo
  case writeEventMask f =>
    cases hF
    exact tableFrame_outcome rfl writeMaskEntry_keepsSdo
  case clearGroup f =>
    cases hF
    exact commandFrame_outcome nofun nofun rfl (clearGroupAct_keepsSdo f)
  case clearEvents f =>
    cases hF
    exact commandFrame_outcome nofun nofun rfl (clearEventsAct_keepsSdo f)
  case drain f =>
    cases hF
    exact commandFrame_outcome nofun nofun rfl drainAct_keepsSdo
  case setMode f =>
    cases hF
    exact commandFrame_outcome nofun nofun rfl (setModeAct_keepsSdo f)
  case setSeed f =>
    cases hF
    exact commandFrame_outcome nofun nofun rfl (setSeedAct_keepsSdo f)
  case swapBanks f | clearAllCounters f | clearCause f | release f | reclaimTags f | governorReset strap f =>
    cases hF
    exact commandFrame_outcome nofun nofun rfl fun _ => rfl
  all_goals cases hF

/-! ### Frames discarded, going on and not taken -/

/-- Settles O43: of what a frame can do, the length, CS_N and the port's readiness leave one. -/
theorem framesDiscardedOrIgnored : Obligations.FramesDiscardedOrIgnored := by
  intro i F s _ hF
  obtain ⟨t, hexec, outcome⟩ := exec_hasFrameOutcome s hF
  rw [hexec]
  refine ⟨fun hready hended wrong => ?_, fun hready hgoing noRead noPop => ?_, fun hnot => ?_⟩
  · cases outcome with
    | notTaken notReady => exact absurd hready (ne_true_of_eq_false notReady)
    | goesOn snap _ going _ => exact absurd hended (ne_true_of_eq_false going)
    | discarded => exact ⟨sdoOf s i F, rfl⟩
    | completed u r n _ _ length edges _ => exact absurd edges (wrong n length)
  · cases outcome with
    | notTaken notReady => exact absurd hready (ne_true_of_eq_false notReady)
    | goesOn snap _ _ silent =>
      refine ⟨sdoOf s i F, ?_⟩
      rw [silent ⟨noRead, noPop⟩]
      rfl
    | discarded _ ended | completed _ _ _ _ ended => exact absurd ended (ne_true_of_eq_false hgoing)
  · cases outcome with
    | notTaken => rfl
    | goesOn _ ready | discarded ready | completed _ _ _ ready => exact absurd ready (ne_true_of_eq_false hnot)

/-! ### SDO -/

/-- SDO is driven exactly while a frame is open (R166). -/
theorem sdoDriven_iff (s : State) : sdoDriven s = true ↔ s.mgmt.openFrame ≠ none := Option.isSome_iff_ne_none

/-- A frame that the port takes leaves SDO its bits, stays open exactly while it goes on, and is then kept with those bits. -/
theorem FrameOutcome.sdo {i : Instr} {F : FrameBits} {s t : State} (outcome : FrameOutcome i F s t)
    (ready : frameReady s = true) :
    t.out.sdo = some (sdoOf s i F) ∧ (sdoDriven t = true ↔ F.ended = false) ∧
      (F.ended = false → t.mgmt.openFrame.map OpenFrame.shifted = some (sdoOf s i F)) := by
  cases outcome with
  | notTaken notReady => exact absurd ready (ne_true_of_eq_false notReady)
  | goesOn snap _ going _ => exact ⟨rfl, iff_of_true rfl going, fun _ => rfl⟩
  | discarded _ ended =>
    have closed := ne_false_of_eq_true ended
    exact ⟨rfl, iff_of_false nofun closed, fun going => absurd going closed⟩
  | completed u r n _ ended _ _ sdo =>
    have closed := ne_false_of_eq_true ended
    exact ⟨sdo, iff_of_false nofun closed, fun going => absurd going closed⟩

/-- Settles O44: the bits of `sdoOf`, on SDO and in the frame that stands open. -/
theorem frameShiftsOut : Obligations.FrameShiftsOut := by
  refine ⟨fun i F s hF hready => ?_, fun s => ⟨rfl, sdoDriven_iff s⟩⟩
  obtain ⟨t, hexec, outcome⟩ := exec_hasFrameOutcome s hF
  obtain ⟨sdo, driven, kept⟩ := outcome.sdo hready
  have clocked : (sdoOf s i F).length = F.edges 0 := shiftedOut_length s F 0 _
  exact ⟨t, sdoOf s i F, hexec, sdo, clocked, fun n j hj h => sdoOf_getD hj (clocked ▸ h), driven, kept⟩

end Sys2Proof.Machine
end
